-- ==== Sys2Proof/Word.lean ====
section
/-! DEFINITION. The words of the block: bytes, buffer addresses (`AW` = 32 bits) and lengths (`LW` = 32 bits), 00_scope.md rule R8. -/

namespace Sys2Proof

/-- One byte of `MEM` or of a packet (20_memory.md R71). -/
abbrev Byte := BitVec 8

/-- A buffer address, `AW` = 32 bits (00_scope.md R8, D27). -/
abbrev Addr := BitVec 32

/-- A length or a position counter, `LW` = 32 bits, unsigned (00_scope.md R8, D28). -/
abbrev Len := BitVec 32

/-- A callback identifier, an opaque value of the caller (10_state.md R37).
DESIGN CHOICE (log 18): the spec gives it no width; 32 bits. -/
abbrev CallbackId := BitVec 32

/-- The number of bytes of `MEM`, `2^AW` (20_memory.md R71). -/
abbrev memSize : Nat := 4294967296

end Sys2Proof
end

