-- ==== Sys2Proof/Syntax.lean ====
section
/-! DEFINITION. The steps of the block as syntax: one constructor of `Instr` per row of spec/opcode_table.json. -/

namespace Sys2Proof

/-- Direction of a pipe or descriptor: `RX = 0`, `TX = 1` (00_scope.md R11, R16; 30_encoding.md R109). -/
inductive Dir where
  | rx
  | tx
deriving DecidableEq, Repr

/-- Ping-pong slot: `EVEN = 0`, `ODD = 1` (00_scope.md R11; 30_encoding.md R109). -/
inductive Slot where
  | even
  | odd
deriving DecidableEq, Repr

/-- DATA0/1 toggle: `DATA0 = 0`, `DATA1 = 1` (00_scope.md R11; 30_encoding.md R108). -/
inductive Toggle where
  | data0
  | data1
deriving DecidableEq, Repr

/-- The five diagnostic tokens (43_control_fsm.md R246, 46_transaction_completion.md R344). -/
inductive DiagTok where
  | timeout
  | ack
  | nak
  | stall
  | dataerr
deriving DecidableEq, Repr

/-- A decoded control request (10_state.md R23, 30_encoding.md R101). -/
structure ControlReq where
  recipient : BitVec 5
  type      : BitVec 2
  dir       : BitVec 1
  request   : BitVec 8
  value     : BitVec 16
  index     : BitVec 16
  length    : BitVec 16
deriving DecidableEq, Repr

/-- The fields of a request that a SETUP row of the table leaves open: all but `type` and `request` (30_encoding.md R101, R114). -/
structure ReqFields where
  recipient : BitVec 5
  dir       : BitVec 1
  value     : BitVec 16
  index     : BitVec 16
  length    : BitVec 16
deriving DecidableEq, Repr

/-- The 8 bytes of a SETUP packet in wire order (30_encoding.md R101). -/
structure SetupData where
  b0 : Byte
  b1 : Byte
  b2 : Byte
  b3 : Byte
  b4 : Byte
  b5 : Byte
  b6 : Byte
  b7 : Byte
deriving DecidableEq, Repr

/-- The steps of the block, one constructor per row of spec/opcode_table.json.

SETUP rows carry the request's open fields; a row over several request codes keeps the low bits of the code (`lo`).
Event rows carry the bits of the event word of 30_encoding.md R110 that the row leaves open; `rsv` is the ignored bits 1:0.
Calls and environment steps carry the operands of their rules; an optional slot, data PID, release or byte list is `none`
in the script form of 30_encoding.md R117 that does not write it. -/
inductive Instr where
  -- SETUP rows (44_std_requests.md)
  | getStatus (f : ReqFields)
  | clearFeature (f : ReqFields)
  | setFeature (f : ReqFields)
  | setAddress (f : ReqFields)
  | getDescriptor (f : ReqFields)
  | getConfiguration (f : ReqFields)
  | setConfiguration (f : ReqFields)
  | getInterface (f : ReqFields)
  | setInterface (f : ReqFields)
  | stdUnrecognised02 (f : ReqFields)
  | stdUnrecognised04 (f : ReqFields)
  | stdUnrecognised07 (f : ReqFields)
  | stdUnrecognised0C0F (lo : BitVec 2) (f : ReqFields)
  | stdUnrecognised101F (lo : BitVec 4) (f : ReqFields)
  | stdUnrecognised203F (lo : BitVec 5) (f : ReqFields)
  | stdUnrecognised407F (lo : BitVec 6) (f : ReqFields)
  | stdUnrecognised80FF (lo : BitVec 7) (f : ReqFields)
  | classRequest (request : BitVec 8) (f : ReqFields)
  | vendorRequest (request : BitVec 8) (f : ReqFields)
  | reservedTypeRequest (request : BitVec 8) (f : ReqFields)
  -- event rows (43_control_fsm.md R235)
  | evSetupRx (pp : Slot) (rsv : BitVec 2)
  | evOutRx (pp : Slot) (rsv : BitVec 2)
  | evInTx (pp : Slot) (rsv : BitVec 2)
  | evDiagTimeout (d : Dir) (pp : Slot) (rsv : BitVec 2)
  | evDiagAck (d : Dir) (pp : Slot) (rsv : BitVec 2)
  | evDiagNak (d : Dir) (pp : Slot) (rsv : BitVec 2)
  | evDiagStall (d : Dir) (pp : Slot) (rsv : BitVec 2)
  | evDiagDataerr (d : Dir) (pp : Slot) (rsv : BitVec 2)
  | evIllegalSetupTx (pp : Slot) (rsv : BitVec 2)
  | evIllegalOutTx (pp : Slot) (rsv : BitVec 2)
  | evIllegalInRx (pp : Slot) (rsv : BitVec 2)
  | evIllegalTok3 (d : Dir) (pp : Slot) (rsv : BitVec 2)
  | evIllegalTok47 (lo : BitVec 2) (d : Dir) (pp : Slot) (rsv : BitVec 2)
  | evIllegalTok8 (d : Dir) (pp : Slot) (rsv : BitVec 2)
  | evIllegalTokB (d : Dir) (pp : Slot) (rsv : BitVec 2)
  | evIllegalTokC (d : Dir) (pp : Slot) (rsv : BitVec 2)
  | evWrongEndpoint8F (tok : BitVec 4) (epLo : BitVec 3) (d : Dir) (pp : Slot) (rsv : BitVec 2)
  | evWrongEndpoint47 (tok : BitVec 4) (epLo : BitVec 2) (d : Dir) (pp : Slot) (rsv : BitVec 2)
  | evWrongEndpoint23 (tok : BitVec 4) (epLo : BitVec 1) (d : Dir) (pp : Slot) (rsv : BitVec 2)
  | evWrongEndpoint1 (tok : BitVec 4) (d : Dir) (pp : Slot) (rsv : BitVec 2)
  -- API calls (45_api.md) and engine operations (41_tx_engine.md, 42_rx_engine.md)
  | send (buf : Addr) (len req : Len) (cb : Option CallbackId) (ctx : Addr)
  | sendSmall (src : Addr) (len : Len)
  | receive (buf : Addr) (max : Len) (cb : Option CallbackId) (ctx : Addr)
  | stall (ep : BitVec 4)
  | query
  | beginTx (buf : Addr) (len req : Len) (cb : Option CallbackId) (ctx : Addr)
  | beginRx (buf : Addr) (max : Len) (cb : Option CallbackId) (ctx : Addr)
  -- environment steps (46_transaction_completion.md)
  | envSetup (pp : Option Slot) (b : SetupData)
  | envIn (pp : Option Slot)
  | envOut (pp : Option Slot) (pid : Option Toggle) (n : BitVec 16) (bytes : Option (List Byte))
  | envDiag (tok : DiagTok) (d : Dir) (pp : Option Slot) (release : Option Bool)
  -- reset steps (70_reset_and_hazards.md)
  | reset
  | busreset
deriving DecidableEq, Repr

end Sys2Proof
end

