-- ==== Sys2Proof/Config.lean ====
section
/-! DEFINITION. The model's parameters (00_scope.md R8) as plain data, their legal values, and the free values. -/

namespace Sys2Proof

/-- One entry of the descriptor collaborator `DescriptorLookup`: the descriptor selected by `value` and `index` has `len` bytes
at `addr` (44_std_requests.md R276). -/
structure DescEntry where
  value : BitVec 16
  index : BitVec 16
  addr  : Addr
  len   : Len
deriving DecidableEq, Repr

/-- The one transfer a supplied `ClassHandler` may queue (44_std_requests.md R290). -/
inductive ClassTransfer where
  | send (buf : Addr) (len req : Len) (cb : Option CallbackId) (ctx : Addr)
  | sendSmall (src : Addr) (len : Len)
  | receive (buf : Addr) (max : Len) (cb : Option CallbackId) (ctx : Addr)
deriving DecidableEq, Repr

/-- What a supplied `ClassHandler` does on one request (44_std_requests.md R290): its calls of `stall`, at most one transfer,
and whether it accepts the request where no transfer was queued. -/
structure ClassEntry where
  req      : ControlReq
  stalls   : List (BitVec 4)
  transfer : Option ClassTransfer
  accept   : Bool
deriving DecidableEq, Repr

/-- The model's arguments of 00_scope.md R8: `M`, `EP0_BUFSIZE`, `SCRATCH[EVEN]`, `SCRATCH[ODD]`, `DescriptorLookup` and
`ClassHandler`. The two collaborators are functions given as finite tables, so that a state stays plain data (log 12). -/
structure Params where
  maxPacket   : Len
  bufSize     : Len
  scratchEven : Addr
  scratchOdd  : Addr
  lookup      : List DescEntry
  classTable  : List ClassEntry
deriving DecidableEq, Repr

namespace Params

/-- `M` is one of 8, 16, 32, 64 and at most `EP0_BUFSIZE` (00_scope.md R8, D8). -/
def maxPacketOk (p : Params) : Bool :=
  (p.maxPacket == 8 || p.maxPacket == 16 || p.maxPacket == 32 || p.maxPacket == 64)
    && decide (p.maxPacket.toNat ≤ p.bufSize.toNat)

/-- `8 ≤ EP0_BUFSIZE ≤ 1023` (00_scope.md R8, D8). -/
def bufSizeOk (p : Params) : Bool :=
  decide (8 ≤ p.bufSize.toNat) && decide (p.bufSize.toNat ≤ 1023)

/-- Each scratch buffer is `EP0_BUFSIZE` bytes of `MEM`, and the two are disjoint (00_scope.md R8, 10_state.md R40). -/
def scratchOk (p : Params) : Bool :=
  decide (p.scratchEven.toNat + p.bufSize.toNat ≤ memSize)
    && decide (p.scratchOdd.toNat + p.bufSize.toNat ≤ memSize)
    && (decide (p.scratchEven.toNat + p.bufSize.toNat ≤ p.scratchOdd.toNat)
      || decide (p.scratchOdd.toNat + p.bufSize.toNat ≤ p.scratchEven.toNat))

/-- The legal values of the model's arguments (00_scope.md R8). -/
def wf (p : Params) : Bool :=
  p.maxPacketOk && p.bufSizeOk && p.scratchOk

end Params

/-- The arguments `State.reset` uses: the spec's defaults `M = 64`, `EP0_BUFSIZE = 64` and `ClassHandler` = Reject
(00_scope.md R8), and, DESIGN CHOICE (log 13), the scratch addresses of 95_test_vectors.md and an empty `DescriptorLookup`.
A statement over all states holds for every other value. -/
def Config.defaults : Params :=
  { maxPacket := 64, bufSize := 64, scratchEven := 0x1000, scratchOdd := 0x1040, lookup := [], classTable := [] }

/-- FREE VALUE (log 9): the `k`-th choice of the environment whether a diagnostic token hands the descriptor back, where the
step does not say (46_transaction_completion.md R344; 93_implementation_defined.md U4). -/
opaque Config.freeRelease : Nat → Bool

/-- FREE VALUE (log 9): the `k`-th byte of an OUT packet whose bytes the step does not give
(46_transaction_completion.md R343; 93_implementation_defined.md U3). -/
opaque Config.freeByte : Nat → Byte

end Sys2Proof
end

