-- ==== Sys2Proof/WellFormed.lean ====
section
/-! DEFINITION. Which instructions are well formed. All operands but one are fields of fixed width, for which every value is
legal; the one check is that an OUT's byte list, where written, has the written count (46_transaction_completion.md R343). -/

namespace Sys2Proof

/-- `|bytes| = n` (46_transaction_completion.md R343); the script form without bytes is well formed (30_encoding.md R117). -/
def outBytesMatch (n : BitVec 16) : Option (List Byte) → Bool
  | none => true
  | some l => l.length == n.toNat

/-- Well-formedness of a step. -/
def Instr.wellFormed : Instr → Bool
  | .envOut _ _ n bytes => outBytesMatch n bytes
  | _ => true

end Sys2Proof
end

