-- ==== Sys2Proof/Decode.lean ====
section
/-! DEFINITION. Encodings: the SETUP packet, the status and event words, tokens (30_encoding.md), the record in which a step
reaches the model, its decoder and its encoder. The two tables of SETUP rows and event rows are the spec's; the record around
them, and the bytes of the steps that have no encoding in the spec, are the model's own (log 2). -/

namespace Sys2Proof

/-! ### Bits and bytes -/

/-- `LE16(b0, b1) = zext_16(b0) | (zext_16(b1) << 8)` (00_scope.md R9). -/
def le16 (b0 b1 : Byte) : BitVec 16 := b1 ++ b0

/-- A 32-bit value from its bytes, least significant first (20_memory.md R70). -/
def le32 (b0 b1 b2 b3 : Byte) : BitVec 32 := b3 ++ (b2 ++ (b1 ++ b0))

/-- Byte `k` of a 16-bit value. -/
def byteOf16 (v : BitVec 16) (k : Nat) : Byte := v.extractLsb' (8 * k) 8

/-- Byte `k` of a 32-bit value. -/
def byteOf32 (v : BitVec 32) (k : Nat) : Byte := v.extractLsb' (8 * k) 8

/-- The four bytes of a 32-bit value, least significant first. -/
def bytesOf32 (v : BitVec 32) : List Byte := [byteOf32 v 0, byteOf32 v 1, byteOf32 v 2, byteOf32 v 3]

/-- `RX = 0`, `TX = 1` (30_encoding.md R109). -/
def Dir.bit : Dir → BitVec 1
  | .rx => 0
  | .tx => 1

/-- The direction a bit names (30_encoding.md R109). -/
def Dir.ofBit (b : BitVec 1) : Dir := if b = 1 then .tx else .rx

/-- `EVEN = 0`, `ODD = 1` (30_encoding.md R109). -/
def Slot.bit : Slot → BitVec 1
  | .even => 0
  | .odd => 1

/-- The slot a bit names (30_encoding.md R109). -/
def Slot.ofBit (b : BitVec 1) : Slot := if b = 1 then .odd else .even

/-- `DATA0 = 0`, `DATA1 = 1` (30_encoding.md R108). -/
def Toggle.bit : Toggle → BitVec 1
  | .data0 => 0
  | .data1 => 1

/-! ### The control request (30_encoding.md R101, R104) -/

/-- `Decode(b)` (30_encoding.md R104); total. -/
def decodeReq (b : SetupData) : ControlReq :=
  { recipient := b.b0.extractLsb' 0 5
    type      := b.b0.extractLsb' 5 2
    dir       := b.b0.extractLsb' 7 1
    request   := b.b1
    value     := le16 b.b2 b.b3
    index     := le16 b.b4 b.b5
    length    := le16 b.b6 b.b7 }

/-- The 8 bytes of a request: the layout of 30_encoding.md R101. -/
def encodeReq (r : ControlReq) : SetupData :=
  { b0 := r.dir ++ (r.type ++ r.recipient)
    b1 := r.request
    b2 := byteOf16 r.value 0
    b3 := byteOf16 r.value 1
    b4 := byteOf16 r.index 0
    b5 := byteOf16 r.index 1
    b6 := byteOf16 r.length 0
    b7 := byteOf16 r.length 1 }

/-- The bytes of a SETUP packet in wire order. -/
def SetupData.toList (b : SetupData) : List Byte := [b.b0, b.b1, b.b2, b.b3, b.b4, b.b5, b.b6, b.b7]

/-- The whole request of a SETUP row: its open fields, the row's type and the row's code. -/
def ReqFields.toReq (f : ReqFields) (type : BitVec 2) (request : BitVec 8) : ControlReq :=
  { recipient := f.recipient, type := type, dir := f.dir, request := request,
    value := f.value, index := f.index, length := f.length }

/-- The open fields of a request. -/
def ControlReq.fields (r : ControlReq) : ReqFields :=
  { recipient := r.recipient, dir := r.dir, value := r.value, index := r.index, length := r.length }

/-! ### Tokens, status word, event word (30_encoding.md R108 to R110) -/

/-- Token `TIMEOUT` (30_encoding.md R108). -/
def tokTimeout : BitVec 4 := 0x0
/-- Token `OUT` (30_encoding.md R108). -/
def tokOut : BitVec 4 := 0x1
/-- Token `ACK` (30_encoding.md R108). -/
def tokAck : BitVec 4 := 0x2
/-- Token `IN` (30_encoding.md R108). -/
def tokIn : BitVec 4 := 0x9
/-- Token `NAK` (30_encoding.md R108). -/
def tokNak : BitVec 4 := 0xA
/-- Token `SETUP` (30_encoding.md R108). -/
def tokSetup : BitVec 4 := 0xD
/-- Token `STALL` (30_encoding.md R108). -/
def tokStall : BitVec 4 := 0xE
/-- Token `DATAERR` (30_encoding.md R108). -/
def tokDataerr : BitVec 4 := 0xF

/-- The token code of a diagnostic token (30_encoding.md R108). -/
def DiagTok.code : DiagTok → BitVec 4
  | .timeout => tokTimeout
  | .ack => tokAck
  | .nak => tokNak
  | .stall => tokStall
  | .dataerr => tokDataerr

/-- The status word with its ignored bits 1:0: `ENDP` 7:4, `TX` 3, `ODD` 2 (30_encoding.md R109). -/
def statWord (ep : BitVec 4) (d : Dir) (pp : Slot) (rsv : BitVec 2) : BitVec 8 :=
  ep ++ (d.bit ++ (pp.bit ++ rsv))

/-- `stat_of(ep, dir, pp)` (40_bd_directory.md R152). -/
def statOf (ep : BitVec 4) (d : Dir) (pp : Slot) : BitVec 8 := statWord ep d pp 0

/-- The event word `EVW = (tok << 8) | STAT` (30_encoding.md R110). -/
def eventWord (tok : BitVec 4) (stat : BitVec 8) : BitVec 12 := tok ++ stat

/-! ### The opcode table's rows -/

/-- The SETUP row a request selects (30_encoding.md R105, R114; the table's masks). Total. -/
def instrOfReq (r : ControlReq) : Instr :=
  let f := r.fields
  let c := r.request
  if r.type = 0 then
    if c = 0x00 then .getStatus f
    else if c = 0x01 then .clearFeature f
    else if c = 0x02 then .stdUnrecognised02 f
    else if c = 0x03 then .setFeature f
    else if c = 0x04 then .stdUnrecognised04 f
    else if c = 0x05 then .setAddress f
    else if c = 0x06 then .getDescriptor f
    else if c = 0x07 then .stdUnrecognised07 f
    else if c = 0x08 then .getConfiguration f
    else if c = 0x09 then .setConfiguration f
    else if c = 0x0A then .getInterface f
    else if c = 0x0B then .setInterface f
    else if c.extractLsb' 2 6 = 3 then .stdUnrecognised0C0F (c.extractLsb' 0 2) f
    else if c.extractLsb' 4 4 = 1 then .stdUnrecognised101F (c.extractLsb' 0 4) f
    else if c.extractLsb' 5 3 = 1 then .stdUnrecognised203F (c.extractLsb' 0 5) f
    else if c.extractLsb' 6 2 = 1 then .stdUnrecognised407F (c.extractLsb' 0 6) f
    else .stdUnrecognised80FF (c.extractLsb' 0 7) f
  else if r.type = 1 then .classRequest c f
  else if r.type = 2 then .vendorRequest c f
  else .reservedTypeRequest c f

/-- The event row an event word selects (30_encoding.md R111; the table's masks), after the endpoint check of
40_bd_directory.md R156. Total on the 12 bits. -/
def instrOfEvent (w : BitVec 12) : Instr :=
  let tok := w.extractLsb' 8 4
  let ep  := w.extractLsb' 4 4
  let d   := Dir.ofBit (w.extractLsb' 3 1)
  let pp  := Slot.ofBit (w.extractLsb' 2 1)
  let rsv := w.extractLsb' 0 2
  if ep = 0 then
    if tok = tokTimeout then .evDiagTimeout d pp rsv
    else if tok = tokAck then .evDiagAck d pp rsv
    else if tok = tokNak then .evDiagNak d pp rsv
    else if tok = tokStall then .evDiagStall d pp rsv
    else if tok = tokDataerr then .evDiagDataerr d pp rsv
    else if tok = tokSetup then
      match d with
      | .rx => .evSetupRx pp rsv
      | .tx => .evIllegalSetupTx pp rsv
    else if tok = tokOut then
      match d with
      | .rx => .evOutRx pp rsv
      | .tx => .evIllegalOutTx pp rsv
    else if tok = tokIn then
      match d with
      | .rx => .evIllegalInRx pp rsv
      | .tx => .evInTx pp rsv
    else if tok = 0x3 then .evIllegalTok3 d pp rsv
    else if tok.extractLsb' 2 2 = 1 then .evIllegalTok47 (tok.extractLsb' 0 2) d pp rsv
    else if tok = 0x8 then .evIllegalTok8 d pp rsv
    else if tok = 0xB then .evIllegalTokB d pp rsv
    else .evIllegalTokC d pp rsv
  else if ep.extractLsb' 3 1 = 1 then .evWrongEndpoint8F tok (ep.extractLsb' 0 3) d pp rsv
  else if ep.extractLsb' 2 2 = 1 then .evWrongEndpoint47 tok (ep.extractLsb' 0 2) d pp rsv
  else if ep.extractLsb' 1 3 = 1 then .evWrongEndpoint23 tok (ep.extractLsb' 0 1) d pp rsv
  else .evWrongEndpoint1 tok d pp rsv

/-! ### The step record (log 2): a kind byte, then the operands, each least significant byte first -/

/-- Why a record is no step of the model. -/
inductive DecodeError where
  /-- the record has no bytes -/
  | emptyRecord
  /-- the kind byte names no row -/
  | unknownKind (kind : Byte)
  /-- the operand bytes do not fit the kind -/
  | badOperands (kind : Byte)
deriving DecidableEq, Repr

/-- Kind byte of a SETUP row: the 8 SETUP bytes follow. -/
def kindSetup : Byte := 0x00
/-- Kind byte of an event row: the event word follows in two bytes. -/
def kindEvent : Byte := 0x01
/-- Kind byte of `send`. -/
def kindSend : Byte := 0x10
/-- Kind byte of `send_small`. -/
def kindSendSmall : Byte := 0x11
/-- Kind byte of `receive`. -/
def kindReceive : Byte := 0x12
/-- Kind byte of `stall`. -/
def kindStall : Byte := 0x13
/-- Kind byte of `query`. -/
def kindQuery : Byte := 0x14
/-- Kind byte of `begin_tx`. -/
def kindBeginTx : Byte := 0x15
/-- Kind byte of `begin_rx`. -/
def kindBeginRx : Byte := 0x16
/-- Kind byte of `env_setup`. -/
def kindEnvSetup : Byte := 0x20
/-- Kind byte of `env_in`. -/
def kindEnvIn : Byte := 0x21
/-- Kind byte of `env_out`. -/
def kindEnvOut : Byte := 0x22
/-- Kind byte of `env_diag`. -/
def kindEnvDiag : Byte := 0x23
/-- Kind byte of `reset`. -/
def kindReset : Byte := 0x30
/-- Kind byte of `busreset`. -/
def kindBusreset : Byte := 0x31

/-- One byte for an optional slot: 0 EVEN, 1 ODD, 2 not written. -/
def encodeSlot : Option Slot → Byte
  | some .even => 0
  | some .odd => 1
  | none => 2

/-- The inverse of `encodeSlot`. -/
def decodeSlot (b : Byte) : Option (Option Slot) :=
  if b = 0 then some (some .even) else if b = 1 then some (some .odd) else if b = 2 then some none else none

/-- One byte for an optional data PID: 0 DATA0, 1 DATA1, 2 not written. -/
def encodePid : Option Toggle → Byte
  | some .data0 => 0
  | some .data1 => 1
  | none => 2

/-- The inverse of `encodePid`. -/
def decodePid (b : Byte) : Option (Option Toggle) :=
  if b = 0 then some (some .data0) else if b = 1 then some (some .data1) else if b = 2 then some none else none

/-- One byte for an optional release choice: 0 false, 1 true, 2 not written. -/
def encodeRelease : Option Bool → Byte
  | some false => 0
  | some true => 1
  | none => 2

/-- The inverse of `encodeRelease`. -/
def decodeRelease (b : Byte) : Option (Option Bool) :=
  if b = 0 then some (some false) else if b = 1 then some (some true) else if b = 2 then some none else none

/-- One byte for a direction: 0 RX, 1 TX. -/
def encodeDir : Dir → Byte
  | .rx => 0
  | .tx => 1

/-- The inverse of `encodeDir`. -/
def decodeDir (b : Byte) : Option Dir :=
  if b = 0 then some .rx else if b = 1 then some .tx else none

/-- One byte for a diagnostic token: its 4-bit code (30_encoding.md R108). -/
def encodeDiagTok (t : DiagTok) : Byte := (0 : BitVec 4) ++ t.code

/-- The inverse of `encodeDiagTok`. -/
def decodeDiagTok (b : Byte) : Option DiagTok :=
  if b = encodeDiagTok .timeout then some .timeout
  else if b = encodeDiagTok .ack then some .ack
  else if b = encodeDiagTok .nak then some .nak
  else if b = encodeDiagTok .stall then some .stall
  else if b = encodeDiagTok .dataerr then some .dataerr
  else none

/-- Five bytes for an optional callback identifier: a flag, then the identifier (zero where there is none). -/
def encodeCb : Option CallbackId → List Byte
  | some c => 1 :: bytesOf32 c
  | none => [0, 0, 0, 0, 0]

/-- The inverse of `encodeCb`. -/
def decodeCb (flag c0 c1 c2 c3 : Byte) : Option (Option CallbackId) :=
  if flag = 1 then some (some (le32 c0 c1 c2 c3))
  else if flag = 0 ∧ c0 = 0 ∧ c1 = 0 ∧ c2 = 0 ∧ c3 = 0 then some none
  else none

/-- The operands of `send` and `begin_tx`. -/
def encodeTxOperands (buf : Addr) (len req : Len) (cb : Option CallbackId) (ctx : Addr) : List Byte :=
  bytesOf32 buf ++ (bytesOf32 len ++ (bytesOf32 req ++ (encodeCb cb ++ bytesOf32 ctx)))

/-- The operands of `receive` and `begin_rx`. -/
def encodeRxOperands (buf : Addr) (max : Len) (cb : Option CallbackId) (ctx : Addr) : List Byte :=
  bytesOf32 buf ++ (bytesOf32 max ++ (encodeCb cb ++ bytesOf32 ctx))

/-- Reads the operands of `send` and `begin_tx`. -/
def decodeTxOperands (mk : Addr → Len → Len → Option CallbackId → Addr → Instr) : List Byte → Option Instr
  | [a0, a1, a2, a3, l0, l1, l2, l3, r0, r1, r2, r3, f, c0, c1, c2, c3, x0, x1, x2, x3] =>
    (decodeCb f c0 c1 c2 c3).map fun cb =>
      mk (le32 a0 a1 a2 a3) (le32 l0 l1 l2 l3) (le32 r0 r1 r2 r3) cb (le32 x0 x1 x2 x3)
  | _ => none

/-- Reads the operands of `receive` and `begin_rx`. -/
def decodeRxOperands (mk : Addr → Len → Option CallbackId → Addr → Instr) : List Byte → Option Instr
  | [a0, a1, a2, a3, l0, l1, l2, l3, f, c0, c1, c2, c3, x0, x1, x2, x3] =>
    (decodeCb f c0 c1 c2 c3).map fun cb => mk (le32 a0 a1 a2 a3) (le32 l0 l1 l2 l3) cb (le32 x0 x1 x2 x3)
  | _ => none

/-- Reads the 8 SETUP bytes. -/
def decodeSetupData : List Byte → Option SetupData
  | [b0, b1, b2, b3, b4, b5, b6, b7] => some ⟨b0, b1, b2, b3, b4, b5, b6, b7⟩
  | _ => none

/-- Reads a SETUP row. -/
def decodeSetupRecord (p : List Byte) : Option Instr :=
  (decodeSetupData p).map fun b => instrOfReq (decodeReq b)

/-- Reads an event row: the event word in two bytes, its bits 15:12 zero. -/
def decodeEventRecord : List Byte → Option Instr
  | [w0, w1] => if w1.extractLsb' 4 4 = 0 then some (instrOfEvent (w1.extractLsb' 0 4 ++ w0)) else none
  | _ => none

/-- Reads `send_small`. -/
def decodeSendSmall : List Byte → Option Instr
  | [a0, a1, a2, a3, l0, l1, l2, l3] => some (.sendSmall (le32 a0 a1 a2 a3) (le32 l0 l1 l2 l3))
  | _ => none

/-- Reads `stall`: the endpoint in the low four bits. -/
def decodeStall : List Byte → Option Instr
  | [e] => if e.extractLsb' 4 4 = 0 then some (.stall (e.extractLsb' 0 4)) else none
  | _ => none

/-- Reads a step that has no operands. -/
def decodeBare (i : Instr) : List Byte → Option Instr
  | [] => some i
  | _ :: _ => none

/-- Reads `env_setup`. -/
def decodeEnvSetup : List Byte → Option Instr
  | s :: p => (decodeSlot s).bind fun pp => (decodeSetupData p).map fun b => .envSetup pp b
  | [] => none

/-- Reads `env_in`. -/
def decodeEnvIn : List Byte → Option Instr
  | [s] => (decodeSlot s).map fun pp => .envIn pp
  | _ => none

/-- Reads `env_out`: slot, data PID, count, whether bytes are written, the bytes. -/
def decodeEnvOut : List Byte → Option Instr
  | s :: t :: n0 :: n1 :: w :: p =>
    (decodeSlot s).bind fun pp => (decodePid t).bind fun pid =>
      if w = 1 ∧ p.length = (le16 n0 n1).toNat then some (.envOut pp pid (le16 n0 n1) (some p))
      else if w = 0 ∧ p = [] then some (.envOut pp pid (le16 n0 n1) none)
      else none
  | _ => none

/-- Reads `env_diag`. -/
def decodeEnvDiag : List Byte → Option Instr
  | [t, d, s, r] =>
    (decodeDiagTok t).bind fun tok => (decodeDir d).bind fun dir =>
      (decodeSlot s).bind fun pp => (decodeRelease r).map fun rel => .envDiag tok dir pp rel
  | _ => none

/-- The operand reader of a kind byte; `none` where the kind names no row. -/
def decodeKind (k : Byte) (p : List Byte) : Option (Option Instr) :=
  if k = kindSetup then some (decodeSetupRecord p)
  else if k = kindEvent then some (decodeEventRecord p)
  else if k = kindSend then some (decodeTxOperands .send p)
  else if k = kindSendSmall then some (decodeSendSmall p)
  else if k = kindReceive then some (decodeRxOperands .receive p)
  else if k = kindStall then some (decodeStall p)
  else if k = kindQuery then some (decodeBare .query p)
  else if k = kindBeginTx then some (decodeTxOperands .beginTx p)
  else if k = kindBeginRx then some (decodeRxOperands .beginRx p)
  else if k = kindEnvSetup then some (decodeEnvSetup p)
  else if k = kindEnvIn then some (decodeEnvIn p)
  else if k = kindEnvOut then some (decodeEnvOut p)
  else if k = kindEnvDiag then some (decodeEnvDiag p)
  else if k = kindReset then some (decodeBare .reset p)
  else if k = kindBusreset then some (decodeBare .busreset p)
  else none

/-- The decoder of step records: total on any bytes, rejecting by name. -/
def decode : List Byte → Except DecodeError Instr
  | [] => .error .emptyRecord
  | k :: p =>
    match decodeKind k p with
    | none => .error (.unknownKind k)
    | some none => .error (.badOperands k)
    | some (some i) => .ok i

/-! ### The encoder -/

/-- The record of a request. -/
def setupRecord (r : ControlReq) : List Byte := kindSetup :: (encodeReq r).toList

/-- The record of an event word. -/
def eventRecord (w : BitVec 12) : List Byte := [kindEvent, w.extractLsb' 0 8, (0 : BitVec 4) ++ w.extractLsb' 8 4]

/-- The event word of a row's bits. -/
def eventBits (tok ep : BitVec 4) (d : Dir) (pp : Slot) (rsv : BitVec 2) : BitVec 12 :=
  eventWord tok (statWord ep d pp rsv)

/-- The request a SETUP row stands for (30_encoding.md R105; the table's match values). -/
def Instr.req? : Instr → Option ControlReq
  | .getStatus f => some (f.toReq 0 0x00)
  | .clearFeature f => some (f.toReq 0 0x01)
  | .setFeature f => some (f.toReq 0 0x03)
  | .setAddress f => some (f.toReq 0 0x05)
  | .getDescriptor f => some (f.toReq 0 0x06)
  | .getConfiguration f => some (f.toReq 0 0x08)
  | .setConfiguration f => some (f.toReq 0 0x09)
  | .getInterface f => some (f.toReq 0 0x0A)
  | .setInterface f => some (f.toReq 0 0x0B)
  | .stdUnrecognised02 f => some (f.toReq 0 0x02)
  | .stdUnrecognised04 f => some (f.toReq 0 0x04)
  | .stdUnrecognised07 f => some (f.toReq 0 0x07)
  | .stdUnrecognised0C0F lo f => some (f.toReq 0 ((3 : BitVec 6) ++ lo))
  | .stdUnrecognised101F lo f => some (f.toReq 0 ((1 : BitVec 4) ++ lo))
  | .stdUnrecognised203F lo f => some (f.toReq 0 ((1 : BitVec 3) ++ lo))
  | .stdUnrecognised407F lo f => some (f.toReq 0 ((1 : BitVec 2) ++ lo))
  | .stdUnrecognised80FF lo f => some (f.toReq 0 ((1 : BitVec 1) ++ lo))
  | .classRequest c f => some (f.toReq 1 c)
  | .vendorRequest c f => some (f.toReq 2 c)
  | .reservedTypeRequest c f => some (f.toReq 3 c)
  | _ => none

/-- The event word an event row stands for (30_encoding.md R110; the table's match values). -/
def Instr.event? : Instr → Option (BitVec 12)
  | .evSetupRx pp rsv => some (eventBits tokSetup 0 .rx pp rsv)
  | .evOutRx pp rsv => some (eventBits tokOut 0 .rx pp rsv)
  | .evInTx pp rsv => some (eventBits tokIn 0 .tx pp rsv)
  | .evDiagTimeout d pp rsv => some (eventBits tokTimeout 0 d pp rsv)
  | .evDiagAck d pp rsv => some (eventBits tokAck 0 d pp rsv)
  | .evDiagNak d pp rsv => some (eventBits tokNak 0 d pp rsv)
  | .evDiagStall d pp rsv => some (eventBits tokStall 0 d pp rsv)
  | .evDiagDataerr d pp rsv => some (eventBits tokDataerr 0 d pp rsv)
  | .evIllegalSetupTx pp rsv => some (eventBits tokSetup 0 .tx pp rsv)
  | .evIllegalOutTx pp rsv => some (eventBits tokOut 0 .tx pp rsv)
  | .evIllegalInRx pp rsv => some (eventBits tokIn 0 .rx pp rsv)
  | .evIllegalTok3 d pp rsv => some (eventBits 0x3 0 d pp rsv)
  | .evIllegalTok47 lo d pp rsv => some (eventBits ((1 : BitVec 2) ++ lo) 0 d pp rsv)
  | .evIllegalTok8 d pp rsv => some (eventBits 0x8 0 d pp rsv)
  | .evIllegalTokB d pp rsv => some (eventBits 0xB 0 d pp rsv)
  | .evIllegalTokC d pp rsv => some (eventBits 0xC 0 d pp rsv)
  | .evWrongEndpoint8F tok lo d pp rsv => some (eventBits tok ((1 : BitVec 1) ++ lo) d pp rsv)
  | .evWrongEndpoint47 tok lo d pp rsv => some (eventBits tok ((1 : BitVec 2) ++ lo) d pp rsv)
  | .evWrongEndpoint23 tok lo d pp rsv => some (eventBits tok ((1 : BitVec 3) ++ lo) d pp rsv)
  | .evWrongEndpoint1 tok d pp rsv => some (eventBits tok 1 d pp rsv)
  | _ => none

/-- The record of a call, environment step or reset step (log 2); the SETUP and event rows have their own. -/
def encodeCall : Instr → List Byte
  | .send buf len req cb ctx => kindSend :: encodeTxOperands buf len req cb ctx
  | .sendSmall src len => kindSendSmall :: (bytesOf32 src ++ bytesOf32 len)
  | .receive buf max cb ctx => kindReceive :: encodeRxOperands buf max cb ctx
  | .stall ep => [kindStall, (0 : BitVec 4) ++ ep]
  | .query => [kindQuery]
  | .beginTx buf len req cb ctx => kindBeginTx :: encodeTxOperands buf len req cb ctx
  | .beginRx buf max cb ctx => kindBeginRx :: encodeRxOperands buf max cb ctx
  | .envSetup pp b => kindEnvSetup :: encodeSlot pp :: b.toList
  | .envIn pp => [kindEnvIn, encodeSlot pp]
  | .envOut pp pid n none => [kindEnvOut, encodeSlot pp, encodePid pid, byteOf16 n 0, byteOf16 n 1, 0]
  | .envOut pp pid n (some l) => kindEnvOut :: encodeSlot pp :: encodePid pid :: byteOf16 n 0 :: byteOf16 n 1 :: 1 :: l
  | .envDiag tok d pp rel => [kindEnvDiag, encodeDiagTok tok, encodeDir d, encodeSlot pp, encodeRelease rel]
  | .reset => [kindReset]
  | .busreset => [kindBusreset]
  | _ => []

/-- The encoder: the record of a step. -/
def encode (i : Instr) : List Byte :=
  match i.req? with
  | some r => setupRecord r
  | none =>
    match i.event? with
    | some w => eventRecord w
    | none => encodeCall i

/-! ### The opcode table's numbers -/

/-- The numbers of spec/opcode_table.json that are the match value of an event row and of no SETUP row.
The table's two formats share the numbers below 0x1000; log 3 says how the model reads one. -/
def eventOnlyWords : List Nat := [0xD00, 0x908, 0xE00, 0xF00, 0xD08, 0x108, 0x080, 0x010]

/-- The record of the table's number `w`: an event where the number has 12 bits or is the match value of an event row only,
a SETUP packet with bytes 2 to 7 zero otherwise (log 3). -/
def tableRecord (nbits w : Nat) : List Byte :=
  if nbits = 12 ∨ w ∈ eventOnlyWords then eventRecord (BitVec.ofNat 12 w)
  else [kindSetup, BitVec.ofNat 8 w, BitVec.ofNat 8 (w / 256), 0, 0, 0, 0, 0, 0]

/-- The instruction the decoder reads from the table's number `w`. -/
def decodeTableWord (nbits w : Nat) : Option Instr :=
  match decode (tableRecord nbits w) with
  | .ok i => some i
  | .error _ => none

end Sys2Proof
end

