-- ==== Sys2Proof/Machine/State.lean ====
section
/-! DEFINITION. The state of the block (10_state.md), as plain data, and its power-on value. -/

namespace Sys2Proof.Machine

open Sys2Proof

/-- `DEV.state` (10_state.md R21). -/
inductive DevState where
  | disabled
  | default
  | settingAddress
  | address
  | configured
deriving DecidableEq, Repr

/-- `CTRL.stage` (10_state.md R22). -/
inductive Stage where
  | idle
  | data
  | status
deriving DecidableEq, Repr

/-- The outcomes of the request handler (44_std_requests.md R270). -/
inductive ReqOutcome where
  | noData
  | dataQueued
  | error
deriving DecidableEq, Repr

/-- The rules a fault can name (60_exceptions.md R372). -/
inductive FaultRule where
  /-- a memory access past the top of the address space -/
  | r71
  /-- arming a descriptor the environment owns -/
  | r75
  /-- `begin_tx` while a TX descriptor is owned -/
  | r171
  /-- `begin_rx` while an RX descriptor is owned -/
  | r201
  /-- an OUT of more bytes than armed -/
  | r206
  /-- an event for a descriptor still owned -/
  | r235
  /-- a status transfer that did not finish in one transaction -/
  | r237
  /-- a token and direction the peripheral cannot produce -/
  | r247
deriving DecidableEq, Repr

/-- The reasons of a refusal of the spec (60_exceptions.md R372). -/
inductive RefuseReason where
  /-- an event or a `stall` naming an endpoint other than 0 (40_bd_directory.md R156, 45_api.md R327) -/
  | endpointNot0
deriving DecidableEq, Repr

/-- The sticky mark `S.bad` (10_state.md R46). -/
inductive BadMark where
  | fault (rule : FaultRule)
  | refused (reason : RefuseReason)
deriving DecidableEq, Repr

/-- A record of the output trace `OUT` (10_state.md R45). -/
inductive TraceRec where
  /-- a completion callback invoked -/
  | cb (d : Dir) (id : CallbackId) (buf : Addr) (len : Len) (ctx : Addr)
  /-- the controller wrote `HW.ADDR` at a status stage's end -/
  | addrSet (a : BitVec 7)
  /-- the controller set `HW.EP0STALL` -/
  | stall
  /-- the environment delivered an IN packet to the host -/
  | hostIn (t : Toggle) (bytes : List Byte)
deriving DecidableEq, Repr

/-- A buffer descriptor `BD[i]` (10_state.md R41). -/
structure Bd where
  own    : Bool
  bc     : BitVec 10
  dts    : Bool
  data01 : Toggle
  addr   : Addr
  stall  : Bool
  tokPid : BitVec 4
deriving DecidableEq, Repr

/-- A pipe-state record `PIPE[d]` (10_state.md R30 to R38). -/
structure Pipe where
  pingpong      : Slot
  data01        : Toggle
  transferSize  : Len
  pos           : Len
  dataBuf       : Addr
  shortTransfer : Bool
  callback      : Option CallbackId
  ctx           : Addr
  epMaxsize     : Len
deriving DecidableEq, Repr

/-- The result a step returns to its caller (45_api.md R331). The MODEL's own (log 6). -/
inductive Ret where
  /-- the step returns nothing -/
  | nothing
  /-- the length an engine operation returns -/
  | len (n : Len)
  /-- the capacity error `ERR` of `send_small` (45_api.md R314) -/
  | err
  /-- the pair `query` returns (45_api.md R329) -/
  | query (state : DevState) (config : BitVec 8)
  /-- the outcome of a request's handler (44_std_requests.md R270) -/
  | outcome (o : ReqOutcome)
  /-- an environment step whose precondition fails: no step (log 8) -/
  | noStep
deriving DecidableEq, Repr

/-- One input from outside the machine. The MODEL's own (logs 1, 20). -/
inductive Input where
  /-- a step: its record -/
  | step (record : List Byte)
  /-- a caller stores a byte into `MEM` (20_memory.md R77 (c), R81) -/
  | callerWrite (a : Addr) (b : Byte)
deriving DecidableEq, Repr

/-- The whole state (10_state.md R20), and after it the model's parameters (log 12) and the model's own fields. -/
structure State where
  devState       : DevState
  pendingAddress : BitVec 7
  devConfig      : BitVec 8
  stage          : Stage
  req            : Option ControlReq
  hwAddr         : BitVec 7
  ep0Stall       : Bool
  rx             : Pipe
  tx             : Pipe
  bd             : Vector Bd 64
  mem            : List Host.Cell
  out            : List TraceRec
  bad            : Option BadMark
  params         : Params
  inputs         : List Input
  ret            : Ret
  fresh          : Nat
deriving DecidableEq, Repr

/-- The machine never stops with a fault: a fault of the spec is the sticky mark of `BadMark`, a next state (60_exceptions.md
R375; log 7). So this type has no constructor. Safe: no step is left out by it. -/
inductive Fault where
deriving DecidableEq, Repr

/-- Why a step of the model is refused. -/
inductive Refusal where
  /-- an instruction that has no meaning yet (raised by `exec` only; no arm raises it). Safe. -/
  | notModelled (mnemonic : String)
  /-- raised by `step`: the next input's record is no encoding of any row, so the outside gave no step (log 2). Safe. -/
  | undecodable (e : DecodeError)
deriving DecidableEq, Repr

/-- A pipe at power-on, with the parameter `M` as its maximum packet size (10_state.md R38, R50). -/
def Pipe.powerOn (m : Len) : Pipe :=
  { pingpong := .even, data01 := .data0, transferSize := 0, pos := 0, dataBuf := 0, shortTransfer := false,
    callback := none, ctx := 0, epMaxsize := m }

/-- A descriptor at power-on: not owned (10_state.md R41); the other fields are unspecified, DESIGN CHOICE zero (log 14). -/
def Bd.powerOn : Bd :=
  { own := false, bc := 0, dts := false, data01 := .data0, addr := 0, stall := false, tokPid := 0 }

/-- The power-on values of 10_state.md R50 under the model arguments `p`. -/
def State.powerOn (p : Params) : State :=
  { devState := .disabled, pendingAddress := 0, devConfig := 0, stage := .idle, req := none, hwAddr := 0, ep0Stall := false,
    rx := Pipe.powerOn p.maxPacket, tx := Pipe.powerOn p.maxPacket, bd := Vector.replicate 64 Bd.powerOn, mem := [], out := [],
    bad := none, params := p, inputs := [], ret := .nothing, fresh := 0 }

/-- The machine right after reset (10_state.md R50, 70_reset_and_hazards.md R400) under the default arguments (log 13). -/
def State.reset : State := State.powerOn Config.defaults

end Sys2Proof.Machine
end

