-- ==== Sys2Proof/Machine/Ops.lean ====
section
/-! DEFINITION. The named operations over memory, pipes, descriptors and the trace, the sticky mark (the one effect of a fault or
refusal), and the fetch of the next input. -/

namespace Sys2Proof.Machine

open Sys2Proof

/-- What an operation inside a step answers: a value, or the mark the step ends in (00_scope.md R12). -/
abbrev Res (α : Type) := Except BadMark α

/-! ### Memory (20_memory.md R71) -/

/-- Memory as data: address and byte, addresses strictly rising, no byte equal to `memDefault`. -/
abbrev Memory := List Host.Cell

/-- What an unlisted address reads as. The spec leaves `MEM` unspecified at power-on (10_state.md R44):
DESIGN CHOICE zero (log 15). -/
def memDefault : Byte := 0

/-- The byte at an address. -/
def memGet : Memory → Nat → Byte
  | [], _ => memDefault
  | (k, v) :: r, a => if k = a then v else memGet r a

/-- Memory with one byte stored; keeps the canonical form. -/
def memPut : Memory → Nat → Byte → Memory
  | [], a, b => if b = memDefault then [] else [(a, b)]
  | (k, v) :: r, a, b =>
    if a < k then (if b = memDefault then (k, v) :: r else (a, b) :: (k, v) :: r)
    else if a = k then (if b = memDefault then r else (a, b) :: r)
    else (k, v) :: memPut r a b

/-- Whether every entry from address `lo` on is in order, inside `MEM` and not the default byte. -/
def memWfFrom (lo : Nat) : Memory → Bool
  | [] => true
  | (k, v) :: r => decide (lo ≤ k) && decide (k < memSize) && !(v == memDefault) && memWfFrom (k + 1) r

/-- The canonical form of memory. -/
def Memory.wf (m : Memory) : Bool := memWfFrom 0 m

/-- `n` bytes from address `a` on, in address order (20_memory.md R71). -/
def memGetList (m : Memory) (a : Nat) : Nat → List Byte
  | 0 => []
  | n + 1 => memGet m a :: memGetList m (a + 1) n

/-- Memory with the bytes stored from address `a` on (20_memory.md R71). -/
def memPutList (m : Memory) (a : Nat) : List Byte → Memory
  | [] => m
  | b :: r => memPutList (memPut m a b) (a + 1) r

/-- State with another memory. -/
def State.setMem (s : State) (m : Memory) : State := { s with mem := m }

/-- `MemRead(a, n)`; an access past the top of the address space is fault(R71) (20_memory.md R71). -/
def memRead (a : Addr) (n : Nat) (s : State) : Res (List Byte) :=
  if a.toNat + n ≤ memSize then .ok (memGetList s.mem a.toNat n) else .error (.fault .r71)

/-- `MemWrite(a, |bytes|, bytes)`; an access past the top of the address space is fault(R71) (20_memory.md R71). -/
def memWrite (a : Addr) (bytes : List Byte) (s : State) : Res State :=
  if a.toNat + bytes.length ≤ memSize then .ok (s.setMem (memPutList s.mem a.toNat bytes)) else .error (.fault .r71)

/-- `MemRead(a, 8)`, the controller's read of a SETUP packet (20_memory.md R84, 43_control_fsm.md R236). -/
def memReadSetup (a : Addr) (s : State) : Res SetupData :=
  if a.toNat + 8 ≤ memSize then
    .ok { b0 := memGet s.mem a.toNat, b1 := memGet s.mem (a.toNat + 1), b2 := memGet s.mem (a.toNat + 2),
          b3 := memGet s.mem (a.toNat + 3), b4 := memGet s.mem (a.toNat + 4), b5 := memGet s.mem (a.toNat + 5),
          b6 := memGet s.mem (a.toNat + 6), b7 := memGet s.mem (a.toNat + 7) }
  else .error (.fault .r71)

/-! ### State fields -/

/-- `PIPE[d]` (10_state.md R30). -/
def State.pipe (s : State) : Dir → Pipe
  | .rx => s.rx
  | .tx => s.tx

/-- State with another `PIPE[d]`. -/
def State.setPipe (s : State) (d : Dir) (p : Pipe) : State :=
  match d with
  | .rx => { s with rx := p }
  | .tx => { s with tx := p }

/-- `BD[i]` (10_state.md R41). -/
def State.bdAt (s : State) (i : Fin 64) : Bd := s.bd[i]

/-- State with another `BD[i]`. -/
def State.setBd (s : State) (i : Fin 64) (b : Bd) : State := { s with bd := s.bd.set i b }

/-- State with every descriptor released (70_reset_and_hazards.md R402). -/
def State.releaseAllBd (s : State) : State := { s with bd := s.bd.map fun b => { b with own := false } }

/-- State with another `DEV.state`. -/
def State.setDevState (s : State) (d : DevState) : State := { s with devState := d }

/-- State with another `DEV.pending_address`. -/
def State.setPendingAddress (s : State) (a : BitVec 7) : State := { s with pendingAddress := a }

/-- State with another `DEV.config`. -/
def State.setDevConfig (s : State) (c : BitVec 8) : State := { s with devConfig := c }

/-- State with another `CTRL.stage`. -/
def State.setStage (s : State) (g : Stage) : State := { s with stage := g }

/-- State with another `CTRL.req`. -/
def State.setReq (s : State) (r : Option ControlReq) : State := { s with req := r }

/-- State with another `HW.ADDR`. -/
def State.setHwAddr (s : State) (a : BitVec 7) : State := { s with hwAddr := a }

/-- State with another `HW.EP0STALL`. -/
def State.setEp0Stall (s : State) (b : Bool) : State := { s with ep0Stall := b }

/-- `Emit(e)`: appends a record to `OUT` (00_scope.md R10). -/
def State.emit (s : State) (e : TraceRec) : State := { s with out := s.out ++ [e] }

/-- State with another list of inputs (log 1). -/
def State.setInputs (s : State) (l : List Input) : State := { s with inputs := l }

/-- State with another returned result (log 6). -/
def State.setRet (s : State) (r : Ret) : State := { s with ret := r }

/-- State with the counter of the free values advanced (log 9). -/
def State.takeFresh (s : State) (n : Nat) : State := { s with fresh := s.fresh + n }

/-- `SCRATCH[pp]` (00_scope.md R8, 10_state.md R40). -/
def State.scratch (s : State) : Slot → Addr
  | .even => s.params.scratchEven
  | .odd => s.params.scratchOdd

/-! ### The directory (40_bd_directory.md) -/

/-- `index(ep, dir, pp) = ep*4 + dir*2 + pp` (40_bd_directory.md R150). -/
def bdIndex (ep : BitVec 4) (d : Dir) (pp : Slot) : Fin 64 :=
  ⟨ep.toNat * 4 + d.bit.toNat * 2 + pp.bit.toNat, by
    have h1 := ep.isLt
    have h2 := d.bit.isLt
    have h3 := pp.bit.isLt
    omega⟩

/-- What a status word names (40_bd_directory.md R151). -/
structure Resolved where
  ep    : BitVec 4
  dir   : Dir
  pp    : Slot
  index : Fin 64
deriving DecidableEq, Repr

/-- `resolve(stat)`: bits 1:0 are ignored (40_bd_directory.md R151). -/
def resolve (stat : BitVec 8) : Resolved :=
  { ep := stat.extractLsb' 4 4
    dir := Dir.ofBit (stat.extractLsb' 3 1)
    pp := Slot.ofBit (stat.extractLsb' 2 1)
    index := (stat.extractLsb' 2 6).toFin }

/-- The endpoint-0 descriptor of a direction and slot (40_bd_directory.md R154). -/
def bd0 (d : Dir) (pp : Slot) : Fin 64 := bdIndex 0 d pp

/-! ### Arming (20_memory.md R75) -/

/-- `Arm(i, a, n, t)`: populate the descriptor, then hand it over; fault(R75) where the environment owns it
(20_memory.md R75). -/
def arm (i : Fin 64) (a : Addr) (n : BitVec 10) (t : Toggle) (s : State) : Res State :=
  if (s.bdAt i).own then .error (.fault .r75)
  else .ok (s.setBd i { s.bdAt i with addr := a, bc := n, dts := true, data01 := t, stall := false, own := true })

/-- The environment's hand-back: the byte count and token of the completion, ownership cleared (20_memory.md R76). -/
def handBack (i : Fin 64) (n : BitVec 10) (tok : BitVec 4) (s : State) : State :=
  s.setBd i { s.bdAt i with bc := n, tokPid := tok, own := false }

/-! ### The sticky mark: the one effect of a fault or refusal (00_scope.md R12, 60_exceptions.md R375; log 7)

The block has no trap, no saved context and no return (60_exceptions.md R370, R376), so nothing is saved and there is no
operation that restores. -/

/-- Sets `S.bad`; a mark already there stays (10_state.md R46; DESIGN CHOICE, log 7: also where the reason is another). -/
def State.mark (s : State) (m : BadMark) : State :=
  { s with bad := match s.bad with
                  | none => some m
                  | some old => some old }

/-- The end of a step: its state and its result, or, where the step faults or is refused, the state it began in with the mark
set and nothing returned (60_exceptions.md R375). -/
def finish (s : State) (r : Res (State × Ret)) : Host.Outcome State Fault Refusal :=
  match r with
  | .ok (t, v) => .next (t.setRet v)
  | .error m => .next ((s.mark m).setRet .nothing)

/-- The end of a step that returns nothing. -/
def finishUnit (s : State) (r : Res State) : Host.Outcome State Fault Refusal :=
  finish s (r.map fun t => (t, .nothing))

/-! ### The next input (log 1) -/

/-- Takes the oldest input, if any. -/
def fetch (s : State) : Option (Input × State) :=
  match s.inputs with
  | [] => none
  | i :: r => some (i, s.setInputs r)

/-- A caller's store of one byte into `MEM` (20_memory.md R77 (c), R81; log 20). -/
def callerStore (a : Addr) (b : Byte) (s : State) : State :=
  (s.setMem (memPut s.mem a.toNat b)).setRet .nothing

end Sys2Proof.Machine
end

