-- ==== Sys2Proof/Machine/Flags.lean ====
section
/-! DEFINITION. The status flags of the block: toggles, slots, ownership, the owed zero-length packet, the stall
(10_state.md R49), and the word views of descriptors and registers (30_encoding.md R106, R107, R112). -/

namespace Sys2Proof.Machine

open Sys2Proof

/-- `flip` of a toggle (00_scope.md R11). -/
def flipToggle : Toggle → Toggle
  | .data0 => .data1
  | .data1 => .data0

/-- `flip` of a slot (00_scope.md R11). -/
def flipSlot : Slot → Slot
  | .even => .odd
  | .odd => .even

/-- `flip` of a direction: the other pipe (43_control_fsm.md R237). -/
def flipDir : Dir → Dir
  | .rx => .tx
  | .tx => .rx

/-- Forces `PIPE[d].data01` (43_control_fsm.md R231, R236, R239). -/
def forceToggle (d : Dir) (t : Toggle) (s : State) : State :=
  s.setPipe d { s.pipe d with data01 := t }

/-- Flips `PIPE[d].data01`, once per completed transaction (10_state.md R32). -/
def flipPipeToggle (d : Dir) (s : State) : State :=
  s.setPipe d { s.pipe d with data01 := flipToggle (s.pipe d).data01 }

/-- Whether the environment owns an endpoint-0 descriptor of direction `d` (41_tx_engine.md R171, 42_rx_engine.md R201). -/
def dirOwned (d : Dir) (s : State) : Bool :=
  (s.bdAt (bd0 d .even)).own || (s.bdAt (bd0 d .odd)).own

/-- `PIPE[TX].short_transfer` at `begin_tx`: a zero-length packet is owed where the host asked for more than is sent
(41_tx_engine.md R171). -/
def shortAtBegin (effective requested : Len) : Bool := decide (effective.toNat < requested.toNat)

/-- `PIPE[TX].short_transfer` after a chunk of `n` bytes is armed: a chunk shorter than `M` ends the transfer
(41_tx_engine.md R174). -/
def shortAfterChunk (old : Bool) (n m : Nat) : Bool := if n < m then false else old

/-- One bit of a flag. -/
def flagBit (b : Bool) : BitVec 1 := if b then 1 else 0

/-- Word 0 of an armed descriptor: `bc` 25:16, `own` 7, `data01` 6, `dts` 3, `stall` 2, the rest 0
(30_encoding.md R106, R107). -/
def Bd.armedWord0 (b : Bd) : BitVec 32 :=
  ((0 : BitVec 6) ++ (b.bc ++ ((0 : BitVec 8) ++ (flagBit b.own ++ (b.data01.bit ++ ((0 : BitVec 2) ++
    (flagBit b.dts ++ (flagBit b.stall ++ (0 : BitVec 2)))))))))

/-- Word 0 of a completed descriptor: `bc` 25:16, `own` 7, `data01` 6, `tok_pid` 5:2, the rest 0
(30_encoding.md R106, R107). -/
def Bd.completedWord0 (b : Bd) : BitVec 32 :=
  ((0 : BitVec 6) ++ (b.bc ++ ((0 : BitVec 8) ++ (flagBit b.own ++ (b.data01.bit ++ (b.tokPid ++ (0 : BitVec 2)))))))

/-- Word 1 of a descriptor: the buffer address (30_encoding.md R106). -/
def Bd.word1 (b : Bd) : BitVec 32 := b.addr

/-- The address register word: `ADDR` 6:0, bit 7 written 0 (30_encoding.md R112). -/
def addrRegWord (s : State) : BitVec 8 := (0 : BitVec 1) ++ s.hwAddr

end Sys2Proof.Machine
end

