-- ==== Sys2Proof/Machine/Operands.lean ====
section
/-! DEFINITION. Operand assembly: the fields the rules take from a request (30_encoding.md R116), the collaborators' tables
(44_std_requests.md R276, R290), and the operands a script line leaves out (30_encoding.md R117; logs 9, 10, 11). -/

namespace Sys2Proof.Machine

open Sys2Proof

/-- The SET_ADDRESS address `value[6:0]` (30_encoding.md R116). -/
def reqAddress (r : ControlReq) : BitVec 7 := r.value.extractLsb' 0 7

/-- The SET_CONFIGURATION value `value[7:0]` (30_encoding.md R116). -/
def reqConfig (r : ControlReq) : BitVec 8 := r.value.extractLsb' 0 8

/-- `zext_LW(length)`: the requested length of a reply (30_encoding.md R116). -/
def reqRequested (r : ControlReq) : Len := r.length.setWidth 32

/-- `opposite(dir)`: the direction of the status stage of a request with no data stage (43_control_fsm.md R236). -/
def oppositeDir (dir : BitVec 1) : Dir := if dir = 0 then .tx else .rx

/-- `min(a, b)` of two unsigned lengths (00_scope.md R9). -/
def minLen (a b : Len) : Len := if a.toNat ≤ b.toNat then a else b

/-- `DescriptorLookup(value, index)`: the first entry of the table that matches (44_std_requests.md R276; log 12). -/
def lookupDesc (t : List DescEntry) (value index : BitVec 16) : Option (Addr × Len) :=
  match t with
  | [] => none
  | e :: r => if e.value = value ∧ e.index = index then some (e.addr, e.len) else lookupDesc r value index

/-- The entry of a supplied `ClassHandler` for a request; `none` is the default `Reject` (44_std_requests.md R290; log 12). -/
def lookupClass (t : List ClassEntry) (req : ControlReq) : Option ClassEntry :=
  match t with
  | [] => none
  | e :: r => if e.req = req then some e else lookupClass r req

/-- The slot an environment step acts on: the written one, or, where the script line writes none, the owned endpoint-0
descriptor of the direction, else the pipe's next slot (30_encoding.md R117; log 10). -/
def chooseSlot (d : Dir) (pp : Option Slot) (s : State) : Slot :=
  match pp with
  | some x => x
  | none =>
    if (s.bdAt (bd0 d .even)).own then .even
    else if (s.bdAt (bd0 d .odd)).own then .odd
    else (s.pipe d).pingpong

/-- Whether the host's data PID equals the descriptor's toggle; a script line that writes no PID is the host that sends the
expected one (46_transaction_completion.md R343, R348; log 11). -/
def pidMatches (pid : Option Toggle) (b : Bd) : Bool :=
  match pid with
  | some t => t == b.data01
  | none => true

/-- `n` free bytes, from the `k`-th on (log 9). -/
def freeBytes (k : Nat) : Nat → List Byte
  | 0 => []
  | n + 1 => Config.freeByte k :: freeBytes (k + 1) n

/-- The bytes of an OUT packet of `n` bytes: the written ones, or free bytes (46_transaction_completion.md R343; log 9). -/
def outBytes (n : Nat) (bytes : Option (List Byte)) (s : State) : List Byte :=
  match bytes with
  | some l => l
  | none => freeBytes s.fresh n

/-- How many free values the bytes of an OUT packet take (log 9). -/
def outFresh (n : Nat) (bytes : Option (List Byte)) : Nat :=
  match bytes with
  | some _ => 0
  | none => n

/-- The environment's choice whether a diagnostic token hands the descriptor back: the written one, or a free one
(46_transaction_completion.md R344; log 9). -/
def chooseRelease (rel : Option Bool) (s : State) : Bool :=
  match rel with
  | some b => b
  | none => Config.freeRelease s.fresh

/-- How many free values the choice of `chooseRelease` takes (log 9). -/
def releaseFresh (rel : Option Bool) : Nat :=
  match rel with
  | some _ => 0
  | none => 1

end Sys2Proof.Machine
end

