-- ==== Sys2Proof/Machine/Engine.lean ====
section
/-! DEFINITION. The chunked transfer engines: TX (41_tx_engine.md) and RX (42_rx_engine.md). -/

namespace Sys2Proof.Machine

open Sys2Proof

/-- The result of an engine's `advance` (41_tx_engine.md R177, 42_rx_engine.md R206). -/
inductive Progress where
  | more
  | finished
deriving DecidableEq, Repr

/-- The next chunk's length `min(transfer_size - pos, M)` (41_tx_engine.md R173, 42_rx_engine.md R202). The difference of
natural numbers is 0 where `pos` is above `transfer_size`, which no reachable state is (log 17). -/
def chunkLen (p : Pipe) : Nat := min (p.transferSize.toNat - p.pos.toNat) p.epMaxsize.toNat

/-- Arms the next chunk of pipe `d` at `data_buf + pos` and flips the slot: the part the two engines share.
An address past the top of the address space is fault(R71) (41_tx_engine.md R174, 42_rx_engine.md R203). -/
def armChunk (d : Dir) (s : State) : Res State :=
  let p := s.pipe d
  let a := p.dataBuf.toNat + p.pos.toNat
  if memSize ≤ a then .error (.fault .r71)
  else
    match arm (bd0 d p.pingpong) (BitVec.ofNat 32 a) (BitVec.ofNat 10 (chunkLen p)) p.data01 s with
    | .error m => .error m
    | .ok t => .ok (t.setPipe d { t.pipe d with pingpong := flipSlot p.pingpong })

/-- Counts a TX chunk of `n` bytes as handed to the descriptor, and clears the owed zero-length packet where the chunk is
short (41_tx_engine.md R174). -/
def countTxChunk (n : Nat) (s : State) : State :=
  let p := s.pipe .tx
  s.setPipe .tx { p with pos := BitVec.ofNat 32 (p.pos.toNat + n),
                         shortTransfer := shortAfterChunk p.shortTransfer n p.epMaxsize.toNat }

/-- `ArmTxChunk()` (41_tx_engine.md R174). -/
def armTxChunk (s : State) : Res State :=
  match armChunk .tx s with
  | .error m => .error m
  | .ok t => .ok (countTxChunk (chunkLen (s.pipe .tx)) t)

/-- `ArmRxChunk()` (42_rx_engine.md R203). -/
def armRxChunk (s : State) : Res State := armChunk .rx s

/-- Sets up a pipe for a new transfer: buffer, size, position, owed packet, callback and context
(41_tx_engine.md R171, 42_rx_engine.md R201). -/
def setupPipe (d : Dir) (buf : Addr) (size : Len) (short : Bool) (cb : Option CallbackId) (ctx : Addr) (s : State) : State :=
  s.setPipe d { s.pipe d with dataBuf := buf, transferSize := size, pos := 0, shortTransfer := short, callback := cb, ctx := ctx }

/-- `begin_tx(buf, len, req, cb, ctx)`: fault(R171) where a TX descriptor is owned; returns the effective length
(41_tx_engine.md R171). -/
def beginTx (buf : Addr) (len req : Len) (cb : Option CallbackId) (ctx : Addr) (s : State) : Res (State × Len) :=
  if dirOwned .tx s then .error (.fault .r171)
  else
    let l := minLen len req
    match armTxChunk (setupPipe .tx buf l (shortAtBegin l req) cb ctx s) with
    | .error m => .error m
    | .ok t => .ok (t, l)

/-- `begin_rx(buf, max, cb, ctx)`: fault(R201) where an RX descriptor is owned; returns the maximum length
(42_rx_engine.md R201). -/
def beginRx (buf : Addr) (max : Len) (cb : Option CallbackId) (ctx : Addr) (s : State) : Res (State × Len) :=
  if dirOwned .rx s then .error (.fault .r201)
  else
    match armRxChunk (setupPipe .rx buf max false cb ctx s) with
    | .error m => .error m
    | .ok t => .ok (t, max)

/-- The end of a transfer of pipe `d`: the callback is taken, and its record emitted with the length `len`
(41_tx_engine.md R177 (c), 42_rx_engine.md R206). -/
def finishTransfer (d : Dir) (len : Len) (s : State) : State :=
  let p := s.pipe d
  let t := s.setPipe d { p with callback := none }
  match p.callback with
  | none => t
  | some cb => t.emit (.cb d cb p.dataBuf len p.ctx)

/-- `advance_tx()` (41_tx_engine.md R177). -/
def advanceTx (s : State) : Res (State × Progress) :=
  let u := flipPipeToggle .tx s
  let p := u.pipe .tx
  if p.pos.toNat < p.transferSize.toNat ∨ p.shortTransfer = true then
    match armTxChunk u with
    | .error m => .error m
    | .ok t => .ok (t, .more)
  else .ok (finishTransfer .tx 0 u, .finished)

/-- `advance_rx(i)`: the received count is read from the completed descriptor; more bytes than the transfer has room for are
fault(R206) (42_rx_engine.md R206). -/
def advanceRx (i : Fin 64) (s : State) : Res (State × Progress) :=
  let u := flipPipeToggle .rx s
  let p := u.pipe .rx
  let r := (u.bdAt i).bc.toNat
  let n := p.pos.toNat + r
  if p.transferSize.toNat < n then .error (.fault .r206)
  else
    let v := u.setPipe .rx { p with pos := BitVec.ofNat 32 n }
    if r < p.epMaxsize.toNat ∨ p.transferSize.toNat ≤ n then
      .ok (finishTransfer .rx (BitVec.ofNat 32 n) v, .finished)
    else
      match armRxChunk v with
      | .error m => .error m
      | .ok t => .ok (t, .more)

end Sys2Proof.Machine
end

