-- ==== Sys2Proof/Machine/Handler.lean ====
section
/-! DEFINITION. The byte-transfer API as operations (45_api.md) and the standard request handler (44_std_requests.md). -/

namespace Sys2Proof.Machine

open Sys2Proof

/-! ### The API's operations -/

/-- `send(buf, len, req, on_done, ctx)` (45_api.md R310). -/
def apiSend (buf : Addr) (len req : Len) (cb : Option CallbackId) (ctx : Addr) (s : State) : Res (State × Len) :=
  beginTx buf len req cb ctx s

/-- The requested length `send_small` uses: the current request's `length`, else `len` (45_api.md R314). -/
def smallRequested (len : Len) (s : State) : Len :=
  match s.req with
  | some r => reqRequested r
  | none => len

/-- `send_small(src, len)`; `none` is the capacity error `ERR`, on which no state is written (45_api.md R314). -/
def apiSendSmall (src : Addr) (len : Len) (s : State) : Res (State × Option Len) :=
  if s.params.bufSize.toNat < len.toNat then .ok (s, none)
  else
    match memRead src len.toNat s with
    | .error m => .error m
    | .ok b =>
      let a := s.scratch (s.pipe .tx).pingpong
      match memWrite a b s with
      | .error m => .error m
      | .ok t =>
        match apiSend a len (smallRequested len s) none 0 t with
        | .error m => .error m
        | .ok (u, l) => .ok (u, some l)

/-- `receive(buf, max, on_done, ctx)` (45_api.md R320). -/
def apiReceive (buf : Addr) (max : Len) (cb : Option CallbackId) (ctx : Addr) (s : State) : Res (State × Len) :=
  beginRx buf max cb ctx s

/-- `stall(ep)`: refused for another endpoint than 0 (45_api.md R326, R327). -/
def apiStall (ep : BitVec 4) (s : State) : Res State :=
  if ep = 0 then .ok ((s.setEp0Stall true).emit .stall) else .error (.refused .endpointNot0)

/-! ### Replies -/

/-- `SendReply(bytes)`: the in-place reply, capped at the request's length (44_std_requests.md R277). -/
def sendReply (req : ControlReq) (bytes : List Byte) (s : State) : Res (State × ReqOutcome) :=
  let a := s.scratch (s.pipe .tx).pingpong
  match memWrite a bytes s with
  | .error m => .error m
  | .ok t =>
    match apiSend a (BitVec.ofNat 32 bytes.length) (reqRequested req) none 0 t with
    | .error m => .error m
    | .ok (u, _) => .ok (u, .dataQueued)

/-! ### The standard requests -/

/-- GET_STATUS: two zero bytes (44_std_requests.md R271). -/
def getStatus (req : ControlReq) (s : State) : Res (State × ReqOutcome) := sendReply req [0, 0] s

/-- CLEAR_FEATURE: accepted, no effect (44_std_requests.md R272). -/
def clearFeature (_req : ControlReq) (s : State) : Res (State × ReqOutcome) := .ok (s, .noData)

/-- SET_FEATURE: accepted, no effect (44_std_requests.md R273). -/
def setFeature (_req : ControlReq) (s : State) : Res (State × ReqOutcome) := .ok (s, .noData)

/-- SET_ADDRESS: the address is stored, the commit deferred (44_std_requests.md R274). -/
def setAddress (req : ControlReq) (s : State) : Res (State × ReqOutcome) :=
  .ok ((s.setPendingAddress (reqAddress req)).setDevState .settingAddress, .noData)

/-- GET_DESCRIPTOR: the collaborator's bytes, or a protocol error (44_std_requests.md R275). -/
def getDescriptor (req : ControlReq) (s : State) : Res (State × ReqOutcome) :=
  match lookupDesc s.params.lookup req.value req.index with
  | none => .ok (s, .error)
  | some (a, n) =>
    match apiSend a n (reqRequested req) none 0 s with
    | .error m => .error m
    | .ok (t, _) => .ok (t, .dataQueued)

/-- GET_CONFIGURATION: the stored value (44_std_requests.md R278). -/
def getConfiguration (req : ControlReq) (s : State) : Res (State × ReqOutcome) := sendReply req [s.devConfig] s

/-- SET_CONFIGURATION: the value is stored, the device configured (44_std_requests.md R279). -/
def setConfiguration (req : ControlReq) (s : State) : Res (State × ReqOutcome) :=
  .ok ((s.setDevConfig (reqConfig req)).setDevState .configured, .noData)

/-- GET_INTERFACE: one zero byte (44_std_requests.md R280). -/
def getInterface (req : ControlReq) (s : State) : Res (State × ReqOutcome) := sendReply req [0] s

/-- SET_INTERFACE: rejected with every value (44_std_requests.md R281). -/
def setInterface (_req : ControlReq) (s : State) : Res (State × ReqOutcome) := .ok (s, .error)

/-- An unrecognised standard request: rejected (44_std_requests.md R282). -/
def unrecognised (_req : ControlReq) (s : State) : Res (State × ReqOutcome) := .ok (s, .error)

/-- A request of the reserved type 3: rejected, with no call of `ClassHandler` (44_std_requests.md R291). -/
def reservedType (_req : ControlReq) (s : State) : Res (State × ReqOutcome) := .ok (s, .error)

/-! ### The class and vendor collaborator (44_std_requests.md R290; log 12) -/

/-- The `stall` calls of a supplied handler, in order. -/
def callStalls : List (BitVec 4) → State → Res State
  | [], s => .ok s
  | ep :: r, s =>
    match apiStall ep s with
    | .error m => .error m
    | .ok t => callStalls r t

/-- The transfer of a supplied handler; the Boolean says whether one was queued without an error. -/
def callTransfer : Option ClassTransfer → State → Res (State × Bool)
  | none, s => .ok (s, false)
  | some (.send buf len req cb ctx), s =>
    match apiSend buf len req cb ctx s with
    | .error m => .error m
    | .ok (t, _) => .ok (t, true)
  | some (.sendSmall src len), s =>
    match apiSendSmall src len s with
    | .error m => .error m
    | .ok (t, l) => .ok (t, l.isSome)
  | some (.receive buf max cb ctx), s =>
    match apiReceive buf max cb ctx s with
    | .error m => .error m
    | .ok (t, _) => .ok (t, true)

/-- `ClassHandler(req)`: the default rejects; a supplied entry makes its calls and returns `DataQueued` exactly when it queued
a transfer (44_std_requests.md R290, R270). -/
def classHandler (req : ControlReq) (s : State) : Res (State × ReqOutcome) :=
  match lookupClass s.params.classTable req with
  | none => .ok (s, .error)
  | some e =>
    match callStalls e.stalls s with
    | .error m => .error m
    | .ok t =>
      match callTransfer e.transfer t with
      | .error m => .error m
      | .ok (u, queued) => .ok (u, if queued then .dataQueued else if e.accept then .noData else .error)

/-! ### Dispatch -/

/-- `Handle(req)` (44_std_requests.md R270, 30_encoding.md R114). -/
def handle (req : ControlReq) (s : State) : Res (State × ReqOutcome) :=
  if req.type = 0 then
    if req.request = 0x00 then getStatus req s
    else if req.request = 0x01 then clearFeature req s
    else if req.request = 0x03 then setFeature req s
    else if req.request = 0x05 then setAddress req s
    else if req.request = 0x06 then getDescriptor req s
    else if req.request = 0x08 then getConfiguration req s
    else if req.request = 0x09 then setConfiguration req s
    else if req.request = 0x0A then getInterface req s
    else if req.request = 0x0B then setInterface req s
    else unrecognised req s
  else if req.type = 1 ∨ req.type = 2 then classHandler req s
  else reservedType req s

end Sys2Proof.Machine
end

