-- ==== Sys2Proof/Machine/Control.lean ====
section
/-! DEFINITION. The control-transfer state machine (43_control_fsm.md). -/

namespace Sys2Proof.Machine

open Sys2Proof

/-- A result's state alone. -/
def dropResult {α : Type} (r : Res (State × α)) : Res State :=
  match r with
  | .error m => .error m
  | .ok (t, _) => .ok t

/-- `ArmSetup()`: re-arms the control pipe for the next SETUP (43_control_fsm.md R231). -/
def armSetup (s : State) : Res State :=
  let t := forceToggle .tx .data1 (forceToggle .rx .data0 s)
  dropResult (beginRx (t.scratch (t.pipe .rx).pingpong) t.params.bufSize none 0 t)

/-- The pipe fields a SETUP discards (43_control_fsm.md R232). -/
def clearTransfer (d : Dir) (s : State) : State :=
  s.setPipe d { s.pipe d with callback := none, transferSize := 0, pos := 0, shortTransfer := false }

/-- Takes a descriptor back from the environment (43_control_fsm.md R232). -/
def disown (i : Fin 64) (s : State) : State := s.setBd i { s.bdAt i with own := false }

/-- `CancelEp0()` (43_control_fsm.md R232). -/
def cancelEp0 (s : State) : State :=
  clearTransfer .tx (clearTransfer .rx (disown (bd0 .tx .odd) (disown (bd0 .tx .even) s)))

/-- `EnterStatus(d)`: arms the empty status transaction with DATA1 (43_control_fsm.md R239). -/
def enterStatus (d : Dir) (s : State) : Res State :=
  let t := forceToggle d .data1 (s.setStage .status)
  match d with
  | .tx => dropResult (beginTx (t.scratch (t.pipe .tx).pingpong) 0 0 none 0 t)
  | .rx => dropResult (beginRx (t.scratch (t.pipe .rx).pingpong) 0 none 0 t)

/-- `ProtocolError()` (43_control_fsm.md R240). -/
def protocolError (s : State) : Res State :=
  match apiStall 0 s with
  | .error m => .error m
  | .ok t => armSetup (t.setStage .idle)

/-- The state in which a request's handler runs: outstanding transfers cancelled, the request recorded, both toggles DATA1,
stage `Idle` (43_control_fsm.md R236). -/
def openRequest (req : ControlReq) (s : State) : State :=
  (forceToggle .tx .data1 (forceToggle .rx .data1 ((cancelEp0 s).setReq (some req)))).setStage .idle

/-- What follows a handler's outcome (43_control_fsm.md R236, R238, R240). -/
def continueRequest (req : ControlReq) (o : ReqOutcome) (s : State) : Res State :=
  match o with
  | .noData => enterStatus (oppositeDir req.dir) s
  | .dataQueued => .ok (s.setStage .data)
  | .error => protocolError s

/-- The controller's SETUP step from the decoded request on, with the handler `h`; also answers the handler's outcome
(43_control_fsm.md R236; log 5). -/
def runRequest (h : ControlReq → State → Res (State × ReqOutcome)) (req : ControlReq) (s : State) : Res (State × ReqOutcome) :=
  match h req (openRequest req s) with
  | .error m => .error m
  | .ok (t, o) =>
    match continueRequest req o t with
    | .error m => .error m
    | .ok u => .ok (u, o)

/-- `OnSetup(i)`: the request is read from the just-filled RX buffer (43_control_fsm.md R236). -/
def onSetup (i : Fin 64) (s : State) : Res State :=
  match memReadSetup (s.bdAt i).addr s with
  | .error m => .error m
  | .ok b => dropResult (runRequest handle (decodeReq b) s)

/-- The commit of a pending address (43_control_fsm.md R243). -/
def commitAddress (s : State) : State :=
  if s.devState = .settingAddress then
    ((s.setDevState .address).setHwAddr s.pendingAddress).emit (.addrSet s.pendingAddress)
  else s

/-- `StatusDone()` (43_control_fsm.md R243). -/
def statusDone (s : State) : Res State := armSetup (commitAddress (s.setStage .idle))

/-- The engine that accounts for a completion (43_control_fsm.md R237). -/
def advance (d : Dir) (i : Fin 64) (s : State) : Res (State × Progress) :=
  match d with
  | .tx => advanceTx s
  | .rx => advanceRx i s

/-- `OnData(d, i)` (43_control_fsm.md R237, R242, R245). -/
def onData (d : Dir) (i : Fin 64) (s : State) : Res State :=
  match s.stage with
  | .idle => protocolError s
  | .data =>
    match advance d i s with
    | .error m => .error m
    | .ok (t, .more) => .ok t
    | .ok (t, .finished) => enterStatus (flipDir d) t
  | .status =>
    match advance d i s with
    | .error m => .error m
    | .ok (_, .more) => .error (.fault .r237)
    | .ok (t, .finished) => statusDone t

/-- The five diagnostic tokens (43_control_fsm.md R235). -/
def isDiag (tok : BitVec 4) : Bool :=
  tok == tokAck || tok == tokNak || tok == tokStall || tok == tokDataerr || tok == tokTimeout

/-- `OnDiag(d, i, tok)`: no state is written (43_control_fsm.md R246). -/
def onDiag (s : State) : Res State := .ok s

/-- `OnEvent(stat, tok)`: the checks in the order of the rule (43_control_fsm.md R235, 60_exceptions.md R374). -/
def onEvent (stat : BitVec 8) (tok : BitVec 4) (s : State) : Res State :=
  let r := resolve stat
  if r.ep ≠ 0 then .error (.refused .endpointNot0)
  else if isDiag tok then onDiag s
  else if (s.bdAt r.index).own then .error (.fault .r235)
  else if tok = tokSetup ∧ r.dir = .rx then onSetup r.index s
  else if (tok = tokOut ∧ r.dir = .rx) ∨ (tok = tokIn ∧ r.dir = .tx) then onData r.dir r.index s
  else .error (.fault .r247)

end Sys2Proof.Machine
end

