-- ==== Sys2Proof/Machine/Api.lean ====
section
/-! DEFINITION. The meanings of the API calls (45_api.md) and of the engine operations as steps of their own
(41_tx_engine.md R171, 42_rx_engine.md R201). -/

namespace Sys2Proof.Machine

open Sys2Proof

/-- `send` (45_api.md R310): returns the effective length. -/
def execSend (buf : Addr) (len req : Len) (cb : Option CallbackId) (ctx : Addr) (s : State) :
    Host.Outcome State Fault Refusal :=
  finish s ((apiSend buf len req cb ctx s).map fun r => (r.1, .len r.2))

/-- `send_small` (45_api.md R314): returns the effective length, or the capacity error. -/
def execSendSmall (src : Addr) (len : Len) (s : State) : Host.Outcome State Fault Refusal :=
  finish s ((apiSendSmall src len s).map fun r =>
    (r.1, match r.2 with
          | some l => .len l
          | none => .err))

/-- `receive` (45_api.md R320): returns the maximum length. -/
def execReceive (buf : Addr) (max : Len) (cb : Option CallbackId) (ctx : Addr) (s : State) :
    Host.Outcome State Fault Refusal :=
  finish s ((apiReceive buf max cb ctx s).map fun r => (r.1, .len r.2))

/-- `stall` (45_api.md R326, R327). -/
def execStall (ep : BitVec 4) (s : State) : Host.Outcome State Fault Refusal :=
  finishUnit s (apiStall ep s)

/-- `query` (45_api.md R329): returns the device state and configuration. -/
def execQuery (s : State) : Host.Outcome State Fault Refusal :=
  finish s (.ok (s, .query s.devState s.devConfig))

/-- `begin_tx` (41_tx_engine.md R171): returns the effective length. -/
def execBeginTx (buf : Addr) (len req : Len) (cb : Option CallbackId) (ctx : Addr) (s : State) :
    Host.Outcome State Fault Refusal :=
  finish s ((beginTx buf len req cb ctx s).map fun r => (r.1, .len r.2))

/-- `begin_rx` (42_rx_engine.md R201): returns the maximum length. -/
def execBeginRx (buf : Addr) (max : Len) (cb : Option CallbackId) (ctx : Addr) (s : State) :
    Host.Outcome State Fault Refusal :=
  finish s ((beginRx buf max cb ctx s).map fun r => (r.1, .len r.2))

end Sys2Proof.Machine
end

