-- ==== Sys2Proof/Machine/Environment.lean ====
section
/-! DEFINITION. The meanings of the environment's steps (46_transaction_completion.md). Each completes a descriptor and delivers
its event to the controller in the same step (R340). A step whose precondition fails is no step: it changes nothing (log 8). -/

namespace Sys2Proof.Machine

open Sys2Proof

/-- An environment step whose precondition fails: nothing changes (46_transaction_completion.md R345, R346,
70_reset_and_hazards.md R424; log 8). -/
def noStep (s : State) : Host.Outcome State Fault Refusal := .next (s.setRet .noStep)

/-- `EnvSetup(i, b)` from its first line on (46_transaction_completion.md R341). -/
def completeSetup (pp : Slot) (b : SetupData) (s : State) : Res State :=
  let i := bd0 .rx pp
  match memWrite (s.bdAt i).addr b.toList s with
  | .error m => .error m
  | .ok t => onEvent (statOf 0 .rx pp) tokSetup ((handBack i 8 tokSetup t).setEp0Stall false)

/-- `EnvIn(i)` from its first line on (46_transaction_completion.md R342). -/
def completeIn (pp : Slot) (s : State) : Res State :=
  let i := bd0 .tx pp
  match memRead (s.bdAt i).addr (s.bdAt i).bc.toNat s with
  | .error m => .error m
  | .ok l => onEvent (statOf 0 .tx pp) tokIn (handBack i (s.bdAt i).bc tokIn (s.emit (.hostIn (s.bdAt i).data01 l)))

/-- `EnvOut(i, n, bytes)` from its first line on (46_transaction_completion.md R343). -/
def completeOut (pp : Slot) (l : List Byte) (s : State) : Res State :=
  let i := bd0 .rx pp
  match memWrite (s.bdAt i).addr l s with
  | .error m => .error m
  | .ok t => onEvent (statOf 0 .rx pp) tokOut (handBack i (BitVec.ofNat 10 l.length) tokOut t)

/-- The precondition of `EnvIn` (46_transaction_completion.md R342). -/
def canIn (pp : Slot) (s : State) : Bool := (s.bdAt (bd0 .tx pp)).own && !s.ep0Stall

/-- The precondition of `EnvOut` (46_transaction_completion.md R343). -/
def canOut (pp : Slot) (pid : Option Toggle) (n : Nat) (l : List Byte) (s : State) : Bool :=
  let b := s.bdAt (bd0 .rx pp)
  b.own && !s.ep0Stall && decide (n ≤ b.bc.toNat) && pidMatches pid b && l.length == n

/-- The hand-back of `EnvDiag`, where the environment releases an owned descriptor (46_transaction_completion.md R344). -/
def releaseDiag (i : Fin 64) (tok : BitVec 4) (rel : Bool) (s : State) : State :=
  if rel && (s.bdAt i).own then handBack i (s.bdAt i).bc tok s else s

/-- `env setup` (46_transaction_completion.md R341). -/
def execEnvSetup (pp : Option Slot) (b : SetupData) (s : State) : Host.Outcome State Fault Refusal :=
  let x := chooseSlot .rx pp s
  if (s.bdAt (bd0 .rx x)).own then finishUnit s (completeSetup x b s) else noStep s

/-- `env in` (46_transaction_completion.md R342). -/
def execEnvIn (pp : Option Slot) (s : State) : Host.Outcome State Fault Refusal :=
  let x := chooseSlot .tx pp s
  if canIn x s then finishUnit s (completeIn x s) else noStep s

/-- `env out` (46_transaction_completion.md R343). -/
def execEnvOut (pp : Option Slot) (pid : Option Toggle) (n : BitVec 16) (bytes : Option (List Byte)) (s : State) :
    Host.Outcome State Fault Refusal :=
  let x := chooseSlot .rx pp s
  let l := outBytes n.toNat bytes s
  if canOut x pid n.toNat l s then finishUnit s (completeOut x l (s.takeFresh (outFresh n.toNat bytes))) else noStep s

/-- `env diag` (46_transaction_completion.md R344). -/
def execEnvDiag (tok : DiagTok) (d : Dir) (pp : Option Slot) (release : Option Bool) (s : State) :
    Host.Outcome State Fault Refusal :=
  let x := chooseSlot d pp s
  let t := releaseDiag (bd0 d x) tok.code (chooseRelease release s) (s.takeFresh (releaseFresh release))
  finishUnit s (onEvent (statOf 0 d x) tok.code t)

end Sys2Proof.Machine
end

