-- ==== Sys2Proof/Machine/Events.lean ====
section
/-! DEFINITION. The meanings of the event rows: `OnEvent` of the row's event word (43_control_fsm.md R235, 30_encoding.md R111). -/

namespace Sys2Proof.Machine

open Sys2Proof

/-- `OnEvent(stat, tok)` as a step of the machine. -/
def eventStep (tok ep : BitVec 4) (d : Dir) (pp : Slot) (rsv : BitVec 2) (s : State) : Host.Outcome State Fault Refusal :=
  finishUnit s (onEvent (statWord ep d pp rsv) tok s)

/-- EV_SETUP_RX (43_control_fsm.md R236). -/
def execEvSetupRx (pp : Slot) (rsv : BitVec 2) (s : State) : Host.Outcome State Fault Refusal :=
  eventStep tokSetup 0 .rx pp rsv s

/-- EV_OUT_RX (43_control_fsm.md R237). -/
def execEvOutRx (pp : Slot) (rsv : BitVec 2) (s : State) : Host.Outcome State Fault Refusal :=
  eventStep tokOut 0 .rx pp rsv s

/-- EV_IN_TX (43_control_fsm.md R237). -/
def execEvInTx (pp : Slot) (rsv : BitVec 2) (s : State) : Host.Outcome State Fault Refusal :=
  eventStep tokIn 0 .tx pp rsv s

/-- EV_DIAG_TIMEOUT (43_control_fsm.md R246). -/
def execEvDiagTimeout (d : Dir) (pp : Slot) (rsv : BitVec 2) (s : State) : Host.Outcome State Fault Refusal :=
  eventStep tokTimeout 0 d pp rsv s

/-- EV_DIAG_ACK (43_control_fsm.md R246). -/
def execEvDiagAck (d : Dir) (pp : Slot) (rsv : BitVec 2) (s : State) : Host.Outcome State Fault Refusal :=
  eventStep tokAck 0 d pp rsv s

/-- EV_DIAG_NAK (43_control_fsm.md R246). -/
def execEvDiagNak (d : Dir) (pp : Slot) (rsv : BitVec 2) (s : State) : Host.Outcome State Fault Refusal :=
  eventStep tokNak 0 d pp rsv s

/-- EV_DIAG_STALL (43_control_fsm.md R246). -/
def execEvDiagStall (d : Dir) (pp : Slot) (rsv : BitVec 2) (s : State) : Host.Outcome State Fault Refusal :=
  eventStep tokStall 0 d pp rsv s

/-- EV_DIAG_DATAERR (43_control_fsm.md R246). -/
def execEvDiagDataerr (d : Dir) (pp : Slot) (rsv : BitVec 2) (s : State) : Host.Outcome State Fault Refusal :=
  eventStep tokDataerr 0 d pp rsv s

/-- EV_ILLEGAL_SETUP_TX (43_control_fsm.md R247). -/
def execEvIllegalSetupTx (pp : Slot) (rsv : BitVec 2) (s : State) : Host.Outcome State Fault Refusal :=
  eventStep tokSetup 0 .tx pp rsv s

/-- EV_ILLEGAL_OUT_TX (43_control_fsm.md R247). -/
def execEvIllegalOutTx (pp : Slot) (rsv : BitVec 2) (s : State) : Host.Outcome State Fault Refusal :=
  eventStep tokOut 0 .tx pp rsv s

/-- EV_ILLEGAL_IN_RX (43_control_fsm.md R247). -/
def execEvIllegalInRx (pp : Slot) (rsv : BitVec 2) (s : State) : Host.Outcome State Fault Refusal :=
  eventStep tokIn 0 .rx pp rsv s

/-- EV_ILLEGAL_TOK_3 (43_control_fsm.md R247). -/
def execEvIllegalTok3 (d : Dir) (pp : Slot) (rsv : BitVec 2) (s : State) : Host.Outcome State Fault Refusal :=
  eventStep 0x3 0 d pp rsv s

/-- EV_ILLEGAL_TOK_4_7 (43_control_fsm.md R247). -/
def execEvIllegalTok47 (lo : BitVec 2) (d : Dir) (pp : Slot) (rsv : BitVec 2) (s : State) : Host.Outcome State Fault Refusal :=
  eventStep ((1 : BitVec 2) ++ lo) 0 d pp rsv s

/-- EV_ILLEGAL_TOK_8 (43_control_fsm.md R247). -/
def execEvIllegalTok8 (d : Dir) (pp : Slot) (rsv : BitVec 2) (s : State) : Host.Outcome State Fault Refusal :=
  eventStep 0x8 0 d pp rsv s

/-- EV_ILLEGAL_TOK_B (43_control_fsm.md R247). -/
def execEvIllegalTokB (d : Dir) (pp : Slot) (rsv : BitVec 2) (s : State) : Host.Outcome State Fault Refusal :=
  eventStep 0xB 0 d pp rsv s

/-- EV_ILLEGAL_TOK_C (43_control_fsm.md R247). -/
def execEvIllegalTokC (d : Dir) (pp : Slot) (rsv : BitVec 2) (s : State) : Host.Outcome State Fault Refusal :=
  eventStep 0xC 0 d pp rsv s

/-- EV_WRONG_ENDPOINT_8_F (40_bd_directory.md R156). -/
def execEvWrongEndpoint8F (tok : BitVec 4) (epLo : BitVec 3) (d : Dir) (pp : Slot) (rsv : BitVec 2) (s : State) : Host.Outcome State Fault Refusal :=
  eventStep tok ((1 : BitVec 1) ++ epLo) d pp rsv s

/-- EV_WRONG_ENDPOINT_4_7 (40_bd_directory.md R156). -/
def execEvWrongEndpoint47 (tok : BitVec 4) (epLo : BitVec 2) (d : Dir) (pp : Slot) (rsv : BitVec 2) (s : State) : Host.Outcome State Fault Refusal :=
  eventStep tok ((1 : BitVec 2) ++ epLo) d pp rsv s

/-- EV_WRONG_ENDPOINT_2_3 (40_bd_directory.md R156). -/
def execEvWrongEndpoint23 (tok : BitVec 4) (epLo : BitVec 1) (d : Dir) (pp : Slot) (rsv : BitVec 2) (s : State) : Host.Outcome State Fault Refusal :=
  eventStep tok ((1 : BitVec 3) ++ epLo) d pp rsv s

/-- EV_WRONG_ENDPOINT_1 (40_bd_directory.md R156). -/
def execEvWrongEndpoint1 (tok : BitVec 4) (d : Dir) (pp : Slot) (rsv : BitVec 2) (s : State) : Host.Outcome State Fault Refusal :=
  eventStep tok 1 d pp rsv s

end Sys2Proof.Machine
end

