-- ==== Sys2Proof/Machine/Requests.lean ====
section
/-! DEFINITION. The meanings of the SETUP rows: the controller's SETUP step (43_control_fsm.md R236) for a request that the row
selects, with the row's handler of 44_std_requests.md (log 5). -/

namespace Sys2Proof.Machine

open Sys2Proof

/-- The SETUP step with the handler `h`, as a step of the machine: the result it shows is the handler's outcome. -/
def requestStep (h : ControlReq → State → Res (State × ReqOutcome)) (req : ControlReq) (s : State) :
    Host.Outcome State Fault Refusal :=
  finish s ((runRequest h req s).map fun r => (r.1, .outcome r.2))

/-- GET_STATUS (44_std_requests.md R271). -/
def execGetStatus (f : ReqFields) (s : State) : Host.Outcome State Fault Refusal :=
  requestStep getStatus (f.toReq 0 0x00) s

/-- CLEAR_FEATURE (44_std_requests.md R272). -/
def execClearFeature (f : ReqFields) (s : State) : Host.Outcome State Fault Refusal :=
  requestStep clearFeature (f.toReq 0 0x01) s

/-- SET_FEATURE (44_std_requests.md R273). -/
def execSetFeature (f : ReqFields) (s : State) : Host.Outcome State Fault Refusal :=
  requestStep setFeature (f.toReq 0 0x03) s

/-- SET_ADDRESS (44_std_requests.md R274). -/
def execSetAddress (f : ReqFields) (s : State) : Host.Outcome State Fault Refusal :=
  requestStep setAddress (f.toReq 0 0x05) s

/-- GET_DESCRIPTOR (44_std_requests.md R275). -/
def execGetDescriptor (f : ReqFields) (s : State) : Host.Outcome State Fault Refusal :=
  requestStep getDescriptor (f.toReq 0 0x06) s

/-- GET_CONFIGURATION (44_std_requests.md R278). -/
def execGetConfiguration (f : ReqFields) (s : State) : Host.Outcome State Fault Refusal :=
  requestStep getConfiguration (f.toReq 0 0x08) s

/-- SET_CONFIGURATION (44_std_requests.md R279). -/
def execSetConfiguration (f : ReqFields) (s : State) : Host.Outcome State Fault Refusal :=
  requestStep setConfiguration (f.toReq 0 0x09) s

/-- GET_INTERFACE (44_std_requests.md R280). -/
def execGetInterface (f : ReqFields) (s : State) : Host.Outcome State Fault Refusal :=
  requestStep getInterface (f.toReq 0 0x0A) s

/-- SET_INTERFACE (44_std_requests.md R281). -/
def execSetInterface (f : ReqFields) (s : State) : Host.Outcome State Fault Refusal :=
  requestStep setInterface (f.toReq 0 0x0B) s

/-- STD_UNRECOGNISED_02 (44_std_requests.md R282). -/
def execStdUnrecognised02 (f : ReqFields) (s : State) : Host.Outcome State Fault Refusal :=
  requestStep unrecognised (f.toReq 0 0x02) s

/-- STD_UNRECOGNISED_04 (44_std_requests.md R282). -/
def execStdUnrecognised04 (f : ReqFields) (s : State) : Host.Outcome State Fault Refusal :=
  requestStep unrecognised (f.toReq 0 0x04) s

/-- STD_UNRECOGNISED_07 (44_std_requests.md R282). -/
def execStdUnrecognised07 (f : ReqFields) (s : State) : Host.Outcome State Fault Refusal :=
  requestStep unrecognised (f.toReq 0 0x07) s

/-- STD_UNRECOGNISED_0C_0F (44_std_requests.md R282). -/
def execStdUnrecognised0C0F (lo : BitVec 2) (f : ReqFields) (s : State) : Host.Outcome State Fault Refusal :=
  requestStep unrecognised (f.toReq 0 ((3 : BitVec 6) ++ lo)) s

/-- STD_UNRECOGNISED_10_1F (44_std_requests.md R282). -/
def execStdUnrecognised101F (lo : BitVec 4) (f : ReqFields) (s : State) : Host.Outcome State Fault Refusal :=
  requestStep unrecognised (f.toReq 0 ((1 : BitVec 4) ++ lo)) s

/-- STD_UNRECOGNISED_20_3F (44_std_requests.md R282). -/
def execStdUnrecognised203F (lo : BitVec 5) (f : ReqFields) (s : State) : Host.Outcome State Fault Refusal :=
  requestStep unrecognised (f.toReq 0 ((1 : BitVec 3) ++ lo)) s

/-- STD_UNRECOGNISED_40_7F (44_std_requests.md R282). -/
def execStdUnrecognised407F (lo : BitVec 6) (f : ReqFields) (s : State) : Host.Outcome State Fault Refusal :=
  requestStep unrecognised (f.toReq 0 ((1 : BitVec 2) ++ lo)) s

/-- STD_UNRECOGNISED_80_FF (44_std_requests.md R282). -/
def execStdUnrecognised80FF (lo : BitVec 7) (f : ReqFields) (s : State) : Host.Outcome State Fault Refusal :=
  requestStep unrecognised (f.toReq 0 ((1 : BitVec 1) ++ lo)) s

/-- CLASS_REQUEST (44_std_requests.md R290). -/
def execClassRequest (request : BitVec 8) (f : ReqFields) (s : State) : Host.Outcome State Fault Refusal :=
  requestStep classHandler (f.toReq 1 request) s

/-- VENDOR_REQUEST (44_std_requests.md R290). -/
def execVendorRequest (request : BitVec 8) (f : ReqFields) (s : State) : Host.Outcome State Fault Refusal :=
  requestStep classHandler (f.toReq 2 request) s

/-- RESERVED_TYPE_REQUEST (44_std_requests.md R291). -/
def execReservedTypeRequest (request : BitVec 8) (f : ReqFields) (s : State) : Host.Outcome State Fault Refusal :=
  requestStep reservedType (f.toReq 3 request) s

end Sys2Proof.Machine
end

