-- ==== Sys2Proof/Machine/Resets.lean ====
section
/-! DEFINITION. The reset steps (70_reset_and_hazards.md). -/

namespace Sys2Proof.Machine

open Sys2Proof

/-- A pipe after a bus reset; its maximum packet size is constant (70_reset_and_hazards.md R402, 10_state.md R38). -/
def resetPipe (d : Dir) (s : State) : State := s.setPipe d (Pipe.powerOn (s.pipe d).epMaxsize)

/-- `BusReset()` up to its `ArmSetup` (70_reset_and_hazards.md R402). -/
def busResetFields (s : State) : State :=
  let t := resetPipe .tx (resetPipe .rx s.releaseAllBd)
  let u := (((t.setHwAddr 0).setEp0Stall false).setDevState .default).setPendingAddress 0
  ((u.setDevConfig 0).setStage .idle).setReq none

/-- `busreset` (70_reset_and_hazards.md R402). -/
def execBusreset (s : State) : Host.Outcome State Fault Refusal := finishUnit s (armSetup (busResetFields s))

/-- `reset`: the power-on values; `S.bad` is not cleared (70_reset_and_hazards.md R400). The model's arguments, the inputs and
the counter of the free values stay (log 16). -/
def execReset (s : State) : Host.Outcome State Fault Refusal :=
  .next { State.powerOn s.params with bad := s.bad, inputs := s.inputs, fresh := s.fresh }

end Sys2Proof.Machine
end

