-- ==== Sys2Proof/Machine/Dispatch.lean ====
section
/-! DEFINITION. The dispatch of a step to its meaning: one arm per row of spec/opcode_table.json. -/

namespace Sys2Proof.Machine

open Sys2Proof

/-- One step of the block: the row's meaning. -/
def exec (i : Instr) (s : State) : Host.Outcome State Fault Refusal :=
  match i with
  | .getStatus f => Sys2Proof.Machine.execGetStatus f s
  | .clearFeature f => Sys2Proof.Machine.execClearFeature f s
  | .setFeature f => Sys2Proof.Machine.execSetFeature f s
  | .setAddress f => Sys2Proof.Machine.execSetAddress f s
  | .getDescriptor f => Sys2Proof.Machine.execGetDescriptor f s
  | .getConfiguration f => Sys2Proof.Machine.execGetConfiguration f s
  | .setConfiguration f => Sys2Proof.Machine.execSetConfiguration f s
  | .getInterface f => Sys2Proof.Machine.execGetInterface f s
  | .setInterface f => Sys2Proof.Machine.execSetInterface f s
  | .stdUnrecognised02 f => Sys2Proof.Machine.execStdUnrecognised02 f s
  | .stdUnrecognised04 f => Sys2Proof.Machine.execStdUnrecognised04 f s
  | .stdUnrecognised07 f => Sys2Proof.Machine.execStdUnrecognised07 f s
  | .stdUnrecognised0C0F lo f => Sys2Proof.Machine.execStdUnrecognised0C0F lo f s
  | .stdUnrecognised101F lo f => Sys2Proof.Machine.execStdUnrecognised101F lo f s
  | .stdUnrecognised203F lo f => Sys2Proof.Machine.execStdUnrecognised203F lo f s
  | .stdUnrecognised407F lo f => Sys2Proof.Machine.execStdUnrecognised407F lo f s
  | .stdUnrecognised80FF lo f => Sys2Proof.Machine.execStdUnrecognised80FF lo f s
  | .classRequest request f => Sys2Proof.Machine.execClassRequest request f s
  | .vendorRequest request f => Sys2Proof.Machine.execVendorRequest request f s
  | .reservedTypeRequest request f => Sys2Proof.Machine.execReservedTypeRequest request f s
  | .evSetupRx pp rsv => Sys2Proof.Machine.execEvSetupRx pp rsv s
  | .evOutRx pp rsv => Sys2Proof.Machine.execEvOutRx pp rsv s
  | .evInTx pp rsv => Sys2Proof.Machine.execEvInTx pp rsv s
  | .evDiagTimeout d pp rsv => Sys2Proof.Machine.execEvDiagTimeout d pp rsv s
  | .evDiagAck d pp rsv => Sys2Proof.Machine.execEvDiagAck d pp rsv s
  | .evDiagNak d pp rsv => Sys2Proof.Machine.execEvDiagNak d pp rsv s
  | .evDiagStall d pp rsv => Sys2Proof.Machine.execEvDiagStall d pp rsv s
  | .evDiagDataerr d pp rsv => Sys2Proof.Machine.execEvDiagDataerr d pp rsv s
  | .evIllegalSetupTx pp rsv => Sys2Proof.Machine.execEvIllegalSetupTx pp rsv s
  | .evIllegalOutTx pp rsv => Sys2Proof.Machine.execEvIllegalOutTx pp rsv s
  | .evIllegalInRx pp rsv => Sys2Proof.Machine.execEvIllegalInRx pp rsv s
  | .evIllegalTok3 d pp rsv => Sys2Proof.Machine.execEvIllegalTok3 d pp rsv s
  | .evIllegalTok47 lo d pp rsv => Sys2Proof.Machine.execEvIllegalTok47 lo d pp rsv s
  | .evIllegalTok8 d pp rsv => Sys2Proof.Machine.execEvIllegalTok8 d pp rsv s
  | .evIllegalTokB d pp rsv => Sys2Proof.Machine.execEvIllegalTokB d pp rsv s
  | .evIllegalTokC d pp rsv => Sys2Proof.Machine.execEvIllegalTokC d pp rsv s
  | .evWrongEndpoint8F tok epLo d pp rsv => Sys2Proof.Machine.execEvWrongEndpoint8F tok epLo d pp rsv s
  | .evWrongEndpoint47 tok epLo d pp rsv => Sys2Proof.Machine.execEvWrongEndpoint47 tok epLo d pp rsv s
  | .evWrongEndpoint23 tok epLo d pp rsv => Sys2Proof.Machine.execEvWrongEndpoint23 tok epLo d pp rsv s
  | .evWrongEndpoint1 tok d pp rsv => Sys2Proof.Machine.execEvWrongEndpoint1 tok d pp rsv s
  | .send buf len req cb ctx => Sys2Proof.Machine.execSend buf len req cb ctx s
  | .sendSmall src len => Sys2Proof.Machine.execSendSmall src len s
  | .receive buf max cb ctx => Sys2Proof.Machine.execReceive buf max cb ctx s
  | .stall ep => Sys2Proof.Machine.execStall ep s
  | .query => Sys2Proof.Machine.execQuery s
  | .beginTx buf len req cb ctx => Sys2Proof.Machine.execBeginTx buf len req cb ctx s
  | .beginRx buf max cb ctx => Sys2Proof.Machine.execBeginRx buf max cb ctx s
  | .envSetup pp b => Sys2Proof.Machine.execEnvSetup pp b s
  | .envIn pp => Sys2Proof.Machine.execEnvIn pp s
  | .envOut pp pid n bytes => Sys2Proof.Machine.execEnvOut pp pid n bytes s
  | .envDiag tok d pp release => Sys2Proof.Machine.execEnvDiag tok d pp release s
  | .reset => Sys2Proof.Machine.execReset s
  | .busreset => Sys2Proof.Machine.execBusreset s

end Sys2Proof.Machine
end

