-- ==== Sys2Proof/Machine/Step.lean ====
section
/-! DEFINITION. One step of the machine: it takes the oldest input and runs it (log 1). -/

namespace Sys2Proof.Machine

open Sys2Proof

/-- One step. With no input the machine waits and nothing changes (20_memory.md R79). A record that is no encoding of a row is
refused by name (log 2). -/
def step (s : State) : Host.Outcome State Fault Refusal :=
  match fetch s with
  | none => .next s
  | some (.callerWrite a b, t) => .next (callerStore a b t)
  | some (.step record, t) =>
    match decode record with
    | .error e => .refused (.undecodable e)
    | .ok i => exec i t

/-- `s` with the table's number `w` as its next input (log 4). -/
def State.withFetchWord (s : State) (nbits w : Nat) : State := s.setInputs (.step (tableRecord nbits w) :: s.inputs)

end Sys2Proof.Machine
end

