-- ==== Sys2Proof/Safety.lean ====
section
/-! DEFINITION. The terms claims are stated in: the states the rules of spec/ give for arming, for the stages of a control
transfer and for a marked step, written out field by field and apart from the machine's operations; the invariants of
10_state.md R39 to R43; the transaction count of 41_tx_engine.md R175. -/

namespace Sys2Proof.Machine

open Sys2Proof

/-! ### States the rules give -/

/-- The state with nothing changed but the mark and the result: the whole effect of a step that faults or is refused
(60_exceptions.md R375). A mark that is already there stays (10_state.md R46; DESIGN CHOICE, log 7: also where this step's
reason is another). -/
def marked (m : BadMark) (s : State) : State := { s with bad := some (s.bad.getD m), ret := .nothing }

/-- A descriptor armed with address `a`, count `n` and toggle `t` (20_memory.md R75). -/
def armedBd (a : Addr) (n : Nat) (t : Toggle) (b : Bd) : Bd :=
  { b with addr := a, bc := BitVec.ofNat 10 n, dts := true, data01 := t, stall := false, own := true }

/-- The state after `begin_tx(buf, len, req, cb, ctx)` with no TX descriptor owned: the pipe's fields, the armed descriptor of
the pipe's slot, the flipped slot (41_tx_engine.md R171, R174). -/
def armedTx (buf : Addr) (len req : Len) (cb : Option CallbackId) (ctx : Addr) (s : State) : State :=
  let l : Len := if len.toNat ≤ req.toNat then len else req
  let n := min l.toNat s.tx.epMaxsize.toNat
  { s with
    tx := { s.tx with
            pingpong := flipSlot s.tx.pingpong, transferSize := l, pos := BitVec.ofNat 32 n, dataBuf := buf,
            shortTransfer := decide (l.toNat < req.toNat) && decide (s.tx.epMaxsize.toNat ≤ n), callback := cb, ctx := ctx }
    bd := s.bd.set (bd0 .tx s.tx.pingpong) (armedBd buf n s.tx.data01 (s.bdAt (bd0 .tx s.tx.pingpong))) }

/-- The state after `begin_rx(buf, max, cb, ctx)` with no RX descriptor owned (42_rx_engine.md R201, R203). -/
def armedRx (buf : Addr) (max : Len) (cb : Option CallbackId) (ctx : Addr) (s : State) : State :=
  let n := min max.toNat s.rx.epMaxsize.toNat
  { s with
    rx := { s.rx with
            pingpong := flipSlot s.rx.pingpong, transferSize := max, pos := 0, dataBuf := buf, shortTransfer := false,
            callback := cb, ctx := ctx }
    bd := s.bd.set (bd0 .rx s.rx.pingpong) (armedBd buf n s.rx.data01 (s.bdAt (bd0 .rx s.rx.pingpong))) }

/-- The state after `ArmSetup()` with no RX descriptor owned (43_control_fsm.md R231). -/
def setupArmed (s : State) : State :=
  armedRx (s.scratch s.rx.pingpong) s.params.bufSize none 0
    { s with rx := { s.rx with data01 := .data0 }, tx := { s.tx with data01 := .data1 } }

/-- The state after `ProtocolError()` with no RX descriptor owned (43_control_fsm.md R240). -/
def protocolErrorState (s : State) : State :=
  setupArmed { s with ep0Stall := true, out := s.out ++ [.stall], stage := .idle }

/-- The state after `EnterStatus(TX)` with no TX descriptor owned (43_control_fsm.md R239). -/
def statusInState (s : State) : State :=
  armedTx (s.scratch s.tx.pingpong) 0 0 none 0 { s with stage := .status, tx := { s.tx with data01 := .data1 } }

/-- The state after `EnterStatus(RX)` with no RX descriptor owned (43_control_fsm.md R239). -/
def statusOutState (s : State) : State :=
  armedRx (s.scratch s.rx.pingpong) 0 none 0 { s with stage := .status, rx := { s.rx with data01 := .data1 } }

/-- The state after `StatusDone()` with no RX descriptor owned (43_control_fsm.md R243). -/
def statusDoneState (s : State) : State :=
  setupArmed (if s.devState = .settingAddress then
      { s with stage := .idle, devState := .address, hwAddr := s.pendingAddress, out := s.out ++ [.addrSet s.pendingAddress] }
    else { s with stage := .idle })

/-- A pipe after a SETUP: the transfer discarded, the toggle DATA1 (43_control_fsm.md R232, R236). -/
def setupPipeState (p : Pipe) : Pipe :=
  { p with data01 := .data1, callback := none, transferSize := 0, pos := 0, shortTransfer := false }

/-- The state in which the handler of request `r` runs (43_control_fsm.md R232, R236). -/
def requestState (r : ControlReq) (s : State) : State :=
  { s with
    req := some r, stage := .idle, rx := setupPipeState s.rx, tx := setupPipeState s.tx
    bd := (s.bd.set (bd0 .tx .even) { s.bdAt (bd0 .tx .even) with own := false }).set (bd0 .tx .odd)
            { s.bdAt (bd0 .tx .odd) with own := false } }

/-- The state after a request with no data stage has been handled in state `s` (43_control_fsm.md R238). -/
def noDataState (r : ControlReq) (s : State) : State := if r.dir = 0 then statusInState s else statusOutState s

/-- The state after a reply of `bytes` composed in the scratch buffer has been queued in state `s` (44_std_requests.md R277). -/
def replyState (r : ControlReq) (bytes : List Byte) (s : State) : State :=
  let a := s.scratch s.tx.pingpong
  { armedTx a (BitVec.ofNat 32 bytes.length) (r.length.setWidth 32) none 0 { s with mem := memPutList s.mem a.toNat bytes } with
    stage := .data }

/-- The state after a completed IN that ends its TX transfer: the toggle flipped, the callback taken and its record emitted with
length 0 (41_tx_engine.md R177 (c)). -/
def txFinished (s : State) : State :=
  { s with
    tx := { s.tx with data01 := flipToggle s.tx.data01, callback := none }
    out := match s.tx.callback with
           | none => s.out
           | some cb => s.out ++ [.cb .tx cb s.tx.dataBuf 0 s.tx.ctx] }

/-- Whether a completed IN ends its TX transfer: no bytes remain and no zero-length packet is owed (41_tx_engine.md R177). -/
def txDone (s : State) : Prop := s.tx.transferSize.toNat ≤ s.tx.pos.toNat ∧ s.tx.shortTransfer = false

/-- The state after a completed IN that leaves more to send: the toggle flipped and the next chunk armed with it
(41_tx_engine.md R177 (a), (b), R174). -/
def txNextChunk (s : State) : State :=
  let a := s.tx.dataBuf.toNat + s.tx.pos.toNat
  let n := min (s.tx.transferSize.toNat - s.tx.pos.toNat) s.tx.epMaxsize.toNat
  let t := flipToggle s.tx.data01
  { s with
    tx := { s.tx with
            data01 := t, pingpong := flipSlot s.tx.pingpong, pos := BitVec.ofNat 32 (s.tx.pos.toNat + n),
            shortTransfer := s.tx.shortTransfer && decide (s.tx.epMaxsize.toNat ≤ n) }
    bd := s.bd.set (bd0 .tx s.tx.pingpong) (armedBd (BitVec.ofNat 32 a) n t (s.bdAt (bd0 .tx s.tx.pingpong))) }

/-- The state after a completed OUT of `r` bytes that ends its RX transfer (42_rx_engine.md R206). -/
def rxFinished (r : Nat) (s : State) : State :=
  let total : Len := BitVec.ofNat 32 (s.rx.pos.toNat + r)
  { s with
    rx := { s.rx with data01 := flipToggle s.rx.data01, pos := total, callback := none }
    out := match s.rx.callback with
           | none => s.out
           | some cb => s.out ++ [.cb .rx cb s.rx.dataBuf total s.rx.ctx] }

/-- Whether a completed OUT of `r` bytes ends its RX transfer: a short packet, or the buffer full (42_rx_engine.md R206). -/
def rxDone (r : Nat) (s : State) : Prop := r < s.rx.epMaxsize.toNat ∨ s.rx.transferSize.toNat ≤ s.rx.pos.toNat + r

/-- The state after a completed OUT of `r` bytes that leaves room for more: counted, and the next chunk armed
(42_rx_engine.md R206, R203). -/
def rxNextChunk (r : Nat) (s : State) : State :=
  let q := s.rx.pos.toNat + r
  let n := min (s.rx.transferSize.toNat - q) s.rx.epMaxsize.toNat
  let t := flipToggle s.rx.data01
  { s with
    rx := { s.rx with data01 := t, pingpong := flipSlot s.rx.pingpong, pos := BitVec.ofNat 32 q }
    bd := s.bd.set (bd0 .rx s.rx.pingpong)
            (armedBd (BitVec.ofNat 32 (s.rx.dataBuf.toNat + q)) n t (s.bdAt (bd0 .rx s.rx.pingpong))) }

/-- A descriptor handed back by the environment with a count and a token (20_memory.md R76). -/
def handedBack (i : Fin 64) (n : Nat) (tok : BitVec 4) (s : State) : State :=
  { s with bd := s.bd.set i { s.bdAt i with bc := BitVec.ofNat 10 n, tokPid := tok, own := false } }

/-- The state in which the event of `EnvSetup(i, b)` is handled (46_transaction_completion.md R341). -/
def setupLanded (pp : Slot) (b : SetupData) (s : State) : State :=
  handedBack (bd0 .rx pp) 8 tokSetup
    { s with mem := memPutList s.mem (s.bdAt (bd0 .rx pp)).addr.toNat b.toList, ep0Stall := false }

/-- The state in which the event of `EnvIn(i)` is handled (46_transaction_completion.md R342). -/
def inTaken (pp : Slot) (s : State) : State :=
  let b := s.bdAt (bd0 .tx pp)
  handedBack (bd0 .tx pp) b.bc.toNat tokIn
    { s with out := s.out ++ [.hostIn b.data01 (memGetList s.mem b.addr.toNat b.bc.toNat)] }

/-- The state in which the event of `EnvOut(i, n, bytes)` is handled (46_transaction_completion.md R343). -/
def outLanded (pp : Slot) (l : List Byte) (s : State) : State :=
  handedBack (bd0 .rx pp) l.length tokOut
    { s with mem := memPutList s.mem (s.bdAt (bd0 .rx pp)).addr.toNat l }

/-- The state after a supplied handler's calls `stall(0)`, one for each entry of `l` (45_api.md R326). -/
def stallsCalled (l : List (BitVec 4)) (s : State) : State :=
  { s with ep0Stall := s.ep0Stall || !l.isEmpty, out := s.out ++ l.map fun _ => .stall }

/-- A step's state with the result `v` returned to its caller (45_api.md R331; log 6). -/
def returned (v : Ret) (s : State) : State := { s with ret := v }

/-! ### Properties of states -/

/-- No descriptor of the direction is owned by the environment. -/
def noneOwned (d : Dir) (s : State) : Prop :=
  (s.bdAt (bd0 d .even)).own = false ∧ (s.bdAt (bd0 d .odd)).own = false

/-- `PIPE[d]` invariants (10_state.md R39 (a), R38). -/
def pipeInv (m : Len) (p : Pipe) : Prop := p.pos.toNat ≤ p.transferSize.toNat ∧ p.epMaxsize = m

/-- What an owned descriptor looks like: armed with `dts = 1`, `stall = 0` and at most `M` bytes (20_memory.md R75). -/
def bdInv (m : Len) (b : Bd) : Prop := b.own = true → b.dts = true ∧ b.stall = false ∧ b.bc.toNat ≤ m.toNat

/-- The invariant every step keeps: memory in canonical form, legal arguments, the pipe invariants (10_state.md R39 (a), (c),
R38), owned descriptors as armed (20_memory.md R75), the descriptors of other endpoints not owned (10_state.md R43). -/
structure State.Inv (s : State) : Prop where
  memWf : Memory.wf s.mem = true
  paramsWf : s.params.wf = true
  rxPipe : pipeInv s.params.maxPacket s.rx
  txPipe : pipeInv s.params.maxPacket s.tx
  rxShort : s.rx.shortTransfer = false
  bdArmed : ∀ i : Fin 64, bdInv s.params.maxPacket (s.bdAt i)
  bdOther : ∀ i : Fin 64, 4 ≤ i.val → (s.bdAt i).own = false

/-- 10_state.md R39 (b): an owned endpoint-0 descriptor is the one its pipe armed last, so at most one of a direction is owned. -/
def State.LastArmedOwned (s : State) : Prop :=
  ∀ (d : Dir) (pp : Slot), (s.bdAt (bd0 d pp)).own = true → pp = flipSlot (s.pipe d).pingpong

/-- 46_transaction_completion.md R349: at most one endpoint-0 descriptor is owned, and in `Idle` none of the TX pipe. -/
def State.OneOwned (s : State) : Prop :=
  (∀ (d e : Dir) (pp qq : Slot), (s.bdAt (bd0 d pp)).own = true → (s.bdAt (bd0 e qq)).own = true → d = e ∧ pp = qq)
    ∧ (s.stage = .idle → noneOwned .tx s)

/-- A step of the environment, or a reset step: the steps of a run in which API calls are made only from the handler
(46_transaction_completion.md R349). -/
def isEnvironmentStep : Instr → Bool
  | .envSetup _ _ => true
  | .envIn _ => true
  | .envOut _ _ _ _ => true
  | .envDiag _ _ _ _ => true
  | .reset => true
  | .busreset => true
  | _ => false

/-- The rows whose handler only rejects: SET_INTERFACE, the unrecognised standard codes, the reserved type
(44_std_requests.md R281, R282, R291). -/
def isRejectRow : Instr → Bool
  | .setInterface _ => true
  | .stdUnrecognised02 _ => true
  | .stdUnrecognised04 _ => true
  | .stdUnrecognised07 _ => true
  | .stdUnrecognised0C0F _ _ => true
  | .stdUnrecognised101F _ _ => true
  | .stdUnrecognised203F _ _ => true
  | .stdUnrecognised407F _ _ => true
  | .stdUnrecognised80FF _ _ => true
  | .reservedTypeRequest _ _ => true
  | _ => false

/-- The rows handed to `ClassHandler` (44_std_requests.md R290). -/
def isClassRow : Instr → Bool
  | .classRequest _ _ => true
  | .vendorRequest _ _ => true
  | _ => false

/-- A supplied handler that ends with no transfer queued: it calls none, or its `send_small` is turned away with the capacity
error (45_api.md R314). -/
def queuesNone (e : ClassEntry) (s : State) : Prop :=
  e.transfer = none ∨ ∃ (src : Addr) (len : Len), e.transfer = some (.sendSmall src len) ∧ s.params.bufSize.toNat < len.toNat

/-- The diagnostic event rows (43_control_fsm.md R246). -/
def isDiagRow : Instr → Bool
  | .evDiagTimeout _ _ _ => true
  | .evDiagAck _ _ _ => true
  | .evDiagNak _ _ _ => true
  | .evDiagStall _ _ _ => true
  | .evDiagDataerr _ _ _ => true
  | _ => false

/-- The illegal event rows, with the descriptor each names (43_control_fsm.md R247). -/
def illegalEventBd : Instr → Option (Fin 64)
  | .evIllegalSetupTx pp _ => some (bd0 .tx pp)
  | .evIllegalOutTx pp _ => some (bd0 .tx pp)
  | .evIllegalInRx pp _ => some (bd0 .rx pp)
  | .evIllegalTok3 d pp _ => some (bd0 d pp)
  | .evIllegalTok47 _ d pp _ => some (bd0 d pp)
  | .evIllegalTok8 d pp _ => some (bd0 d pp)
  | .evIllegalTokB d pp _ => some (bd0 d pp)
  | .evIllegalTokC d pp _ => some (bd0 d pp)
  | _ => none

/-- The event rows of another endpoint (40_bd_directory.md R156). -/
def isWrongEndpointRow : Instr → Bool
  | .evWrongEndpoint8F _ _ _ _ _ => true
  | .evWrongEndpoint47 _ _ _ _ _ => true
  | .evWrongEndpoint23 _ _ _ _ _ => true
  | .evWrongEndpoint1 _ _ _ _ => true
  | _ => false

/-- The steps that may store into `MEM` (20_memory.md R84): replies composed in place, `send_small`, a supplied `ClassHandler`,
the SETUP step that runs one of them, the environment's SETUP and OUT, and power-on. -/
def mayStore : Instr → Bool
  | .getStatus _ => true
  | .getConfiguration _ => true
  | .getInterface _ => true
  | .classRequest _ _ => true
  | .vendorRequest _ _ => true
  | .evSetupRx _ _ => true
  | .sendSmall _ _ => true
  | .envSetup _ _ => true
  | .envOut _ _ _ _ => true
  | .reset => true
  | _ => false

/-- A trace record of a completion callback. -/
def TraceRec.isCb : TraceRec → Bool
  | .cb _ _ _ _ _ => true
  | _ => false

/-! ### The transaction count (41_tx_engine.md R175) -/

/-- `C(L)` (41_tx_engine.md R175). -/
def chunkCount (l req m : Nat) : Nat :=
  if l = 0 then 1
  else if l % m ≠ 0 then (l + m - 1) / m
  else if l = req then l / m
  else l / m + 1

/-- The environment hands back the TX descriptors. -/
def txHandedBack (s : State) : State := disown (bd0 .tx .odd) (disown (bd0 .tx .even) s)

/-- How many transactions a TX transfer with an armed chunk still takes until `advance_tx` answers `Finished`, each handed back
before the next; `none` where `k` do not suffice. -/
def txTransactions : Nat → State → Option Nat
  | 0, _ => none
  | k + 1, s =>
    match advanceTx (txHandedBack s) with
    | .ok (_, .finished) => some 1
    | .ok (t, .more) => (txTransactions k t).map fun n => n + 1
    | .error _ => none

end Sys2Proof.Machine
end

