-- ==== Sys2Proof/Certificates/Slice0/Obligations.lean ====
section
/-! DEFINITION. The statements for the provers. -/

open Sys2Proof Sys2Proof.Machine

/-- Decoding the record of any well-formed step gives the step back. For every well-formed instruction i, with every operand at every value, decode (encode i) is i. The records around the SETUP packet and the event word are the model's own (log 2).
Derived from: 30_encoding.md R101, 30_encoding.md R110, 30_encoding.md R117. -/
def Obligations.DecodeInvertsEncode : Prop :=
  ∀ i : Instr, i.wellFormed = true → decode (encode i) = .ok i

/-- A record has one meaning: re-encoding what it decodes to gives the record back. For every list of bytes that decodes to an instruction, the instruction is well formed and its record is exactly those bytes; so no two records decode to one instruction and no bit of a record is dropped (log 2).
Derived from: 30_encoding.md R104, 30_encoding.md R110. -/
def Obligations.EncodeInvertsDecode : Prop :=
  ∀ (b : List Byte) (i : Instr), decode b = .ok i → i.wellFormed = true ∧ encode i = b

/-- Words written out from the encodings decode to the rows they stand for. GET_STATUS, SET_ADDRESS(5), a class request, a vendor request, a reserved-type request, SYNCH_FRAME, and the event words 0xD04, 0x90C, 0x100, 0xA08, 0x300, 0x910 decode to their rows with their operands.
Derived from: 30_encoding.md R104, 30_encoding.md R105, 30_encoding.md R111. -/
def Obligations.SpecWordsDecodeToTheirRows : Prop :=
  decode [0x00, 0x80, 0x00, 0x00, 0x00, 0x00, 0x00, 0x02, 0x00] = .ok (.getStatus ⟨0, 1, 0, 0, 2⟩)
    ∧ decode [0x00, 0x00, 0x05, 0x05, 0x00, 0x00, 0x00, 0x00, 0x00] = .ok (.setAddress ⟨0, 0, 5, 0, 0⟩)
    ∧ decode [0x00, 0x21, 0x09, 0x00, 0x02, 0x00, 0x00, 0x08, 0x00] = .ok (.classRequest 0x09 ⟨1, 0, 0x0200, 0, 8⟩)
    ∧ decode [0x00, 0x40, 0x01, 0x00, 0x00, 0x00, 0x00, 0x0A, 0x00] = .ok (.vendorRequest 0x01 ⟨0, 0, 0, 0, 10⟩)
    ∧ decode [0x00, 0x60, 0x00, 0x00, 0x00, 0x00, 0x00, 0x00, 0x00] = .ok (.reservedTypeRequest 0x00 ⟨0, 0, 0, 0, 0⟩)
    ∧ decode [0x00, 0x82, 0x0C, 0x00, 0x00, 0x81, 0x00, 0x02, 0x00] = .ok (.stdUnrecognised0C0F 0 ⟨2, 1, 0, 0x0081, 2⟩)
    ∧ decode [0x01, 0x04, 0x0D] = .ok (.evSetupRx .odd 0) ∧ decode [0x01, 0x0C, 0x09] = .ok (.evInTx .odd 0)
    ∧ decode [0x01, 0x00, 0x01] = .ok (.evOutRx .even 0) ∧ decode [0x01, 0x08, 0x0A] = .ok (.evDiagNak .tx .even 0)
    ∧ decode [0x01, 0x00, 0x03] = .ok (.evIllegalTok3 .rx .even 0)
    ∧ decode [0x01, 0x10, 0x09] = .ok (.evWrongEndpoint1 0x9 .rx .even 0)

/-- Every 8 bytes decode to the fields of the SETUP layout. For every 8 bytes: recipient is bits 4:0 of byte 0, type bits 6:5, dir bit 7, request byte 1, and value, index and length are the little-endian 16-bit numbers of bytes 2-3, 4-5, 6-7.
The rules formalised: R104. -/
def Obligations.RequestFieldsOfSetupBytes : Prop :=
  ∀ b : SetupData,
    (decodeReq b).recipient.toNat = b.b0.toNat % 32
      ∧ (decodeReq b).type.toNat = b.b0.toNat / 32 % 4
      ∧ (decodeReq b).dir.toNat = b.b0.toNat / 128
      ∧ (decodeReq b).request = b.b1
      ∧ (decodeReq b).value.toNat = b.b2.toNat + 256 * b.b3.toNat
      ∧ (decodeReq b).index.toNat = b.b4.toNat + 256 * b.b5.toNat
      ∧ (decodeReq b).length.toNat = b.b6.toNat + 256 * b.b7.toNat

/-- The directory index, its inverse and the status word of a descriptor. index(ep, dir, pp) = ep*4 + dir*2 + pp with RX = 0, TX = 1, EVEN = 0, ODD = 1; it is injective and onto 0..63; resolve takes ep, dir, pp and the index from bits 7:4, 3, 2 and 7:2 of the status word, and of any status word of a descriptor, whatever its ignored bits, it names that descriptor; stat_of(ep, dir, pp) = (ep << 4) | (dir << 3) | (pp << 2).
The rules formalised: R150, R151, R152. -/
def Obligations.DirectoryIndexAndInverse : Prop :=
  (∀ (ep : BitVec 4) (d : Dir) (pp : Slot),
      (bdIndex ep d pp).val
          = ep.toNat * 4 + (match d with | .rx => 0 | .tx => 1) * 2 + (match pp with | .even => 0 | .odd => 1)
        ∧ (statOf ep d pp).toNat
          = ep.toNat * 16 + (match d with | .rx => 0 | .tx => 1) * 8 + (match pp with | .even => 0 | .odd => 1) * 4
        ∧ ∀ rsv : BitVec 2, resolve (statWord ep d pp rsv) = ⟨ep, d, pp, bdIndex ep d pp⟩)
    ∧ (∀ (ep ep' : BitVec 4) (d d' : Dir) (pp pp' : Slot), bdIndex ep d pp = bdIndex ep' d' pp' → ep = ep' ∧ d = d' ∧ pp = pp')
    ∧ (∀ i : Fin 64, ∃ ep d pp, bdIndex ep d pp = i)
    ∧ ∀ stat : BitVec 8, (resolve stat).ep.toNat = stat.toNat / 16
      ∧ ((resolve stat).dir = .tx ↔ stat.toNat / 8 % 2 = 1) ∧ ((resolve stat).pp = .odd ↔ stat.toNat / 4 % 2 = 1)
      ∧ (resolve stat).index.val = stat.toNat / 4
      ∧ (resolve stat).index = bdIndex (resolve stat).ep (resolve stat).dir (resolve stat).pp

/-- The word form of an armed and of a completed descriptor. An armed descriptor with count n (below 1024) and toggle t has word 0 = n << 16 | 1 << 7 | t << 6 | 1 << 3 and word 1 = its address; a completed one has word 0 = bc << 16 | data01 << 6 | tok_pid << 2.
Derived from: 30_encoding.md R106, 30_encoding.md R107. -/
def Obligations.DescriptorWordForm : Prop :=
  (∀ (a : Addr) (n : Nat) (t : Toggle) (b : Bd), n < 1024 →
      (armedBd a n t b).armedWord0.toNat = n * 65536 + 128 + (match t with | .data0 => 0 | .data1 => 64) + 8
        ∧ (armedBd a n t b).word1 = a)
    ∧ ∀ b : Bd, b.own = false →
      b.completedWord0.toNat = b.bc.toNat * 65536 + (match b.data01 with | .data0 => 0 | .data1 => 64) + b.tokPid.toNat * 4

/-- A step runs the instruction its next record decodes to. When the oldest input is a record that decodes to i, the step is exec of i at the state with that input taken; nothing else is done around it (log 1).
Derived from: 00_scope.md R13, 20_memory.md R72. -/
def Obligations.StepRunsTheDecodedInstruction : Prop :=
  ∀ (s : State) (record : List Byte) (rest : List Input) (i : Instr),
    s.inputs = .step record :: rest → decode record = .ok i → step s = exec i { s with inputs := rest }

/-- What a step does where its next input is no row. With no input the machine waits and nothing changes; a caller's store changes that one byte of memory; a record that does not decode is refused by name. These are the model's own conventions (logs 1, 2, 20).
Derived from: 20_memory.md R79, 20_memory.md R81. -/
def Obligations.StepWithoutARow : Prop :=
  (∀ s : State, s.inputs = [] → step s = .next s)
    ∧ (∀ (s : State) (a : Addr) (b : Byte) (rest : List Input), s.inputs = .callerWrite a b :: rest →
        step s = .next (returned .nothing { s with inputs := rest, mem := memPut s.mem a.toNat b }))
    ∧ ∀ (s : State) (record : List Byte) (rest : List Input) (e : DecodeError),
        s.inputs = .step record :: rest → decode record = .error e → step s = .refused (.undecodable e)

/-- The power-on values. State.reset has every value 10_state.md R50 gives: Disabled, pending address, configuration and hardware address 0, stage Idle, no request, no stall, both pipes EVEN, DATA0, counters 0, no owed packet, no callback, every descriptor not owned, empty trace, no mark.
The rules formalised: R50. -/
def Obligations.ResetValues : Prop :=
  State.reset.devState = .disabled ∧ State.reset.pendingAddress = 0 ∧ State.reset.devConfig = 0
    ∧ State.reset.stage = .idle ∧ State.reset.req = none ∧ State.reset.hwAddr = 0 ∧ State.reset.ep0Stall = false
    ∧ (∀ p ∈ [State.reset.rx, State.reset.tx],
        p.pingpong = .even ∧ p.data01 = .data0 ∧ p.transferSize = 0 ∧ p.pos = 0 ∧ p.dataBuf = 0 ∧ p.ctx = 0
          ∧ p.shortTransfer = false ∧ p.callback = none)
    ∧ (∀ i : Fin 64, (State.reset.bdAt i).own = false) ∧ State.reset.out = [] ∧ State.reset.bad = none

/-- The reset step sets the power-on values and keeps the mark. From every state reset answers a next state with the power-on values; S.bad is not cleared. The model's arguments, its inputs and its counter of free values stay (log 16); what memory then reads as is not stated.
Derived from: 70_reset_and_hazards.md R400, 10_state.md R50. -/
def Obligations.PowerOnResetStep : Prop :=
  ∀ s : State, ∃ t : State, exec .reset s = .next t
    ∧ t.devState = .disabled ∧ t.pendingAddress = 0 ∧ t.devConfig = 0 ∧ t.stage = .idle ∧ t.req = none ∧ t.hwAddr = 0
    ∧ t.ep0Stall = false ∧ t.rx = Pipe.powerOn s.params.maxPacket ∧ t.tx = Pipe.powerOn s.params.maxPacket
    ∧ (∀ i : Fin 64, (t.bdAt i).own = false) ∧ t.out = [] ∧ t.bad = s.bad
    ∧ t.params = s.params ∧ t.inputs = s.inputs ∧ t.fresh = s.fresh

/-- A bus reset releases every descriptor, resets the block and arms for the next SETUP. From every state busreset answers the next state in which every descriptor is released, both pipes, HW.ADDR, the stall, DEV and CTRL have their reset values and the control pipe is armed for a SETUP at SCRATCH[EVEN] with DATA0; memory, the trace and the mark are as before, and so is everything else.
The rules formalised: R402. -/
def Obligations.BusResetRestartsEndpointZero : Prop :=
  ∀ s : State,
    exec .busreset s = .next (returned .nothing (setupArmed { s with
      bd := s.bd.map fun b => { b with own := false }
      rx := Pipe.powerOn s.rx.epMaxsize, tx := Pipe.powerOn s.tx.epMaxsize, hwAddr := 0, ep0Stall := false,
      devState := .default, pendingAddress := 0, devConfig := 0, stage := .idle, req := none }))

/-- query returns the device state and configuration and changes nothing. From every state query answers the same state, returning (DEV.state, DEV.config).
The rules formalised: R329. -/
def Obligations.QueryReturnsDeviceState : Prop :=
  ∀ s : State, exec .query s = .next (returned (.query s.devState s.devConfig) s)

/-- stall(0) sets the indication and records it; another endpoint is refused. stall(ep): for ep = 0 HW.EP0STALL is 1 and a Stall record is added, nothing else changes (no descriptor is cancelled or armed); for ep other than 0 the step is refused: only the mark.
The rules formalised: R326. -/
def Obligations.StallSetsTheIndicationOrIsRefused : Prop :=
  ∀ (ep : BitVec 4) (s : State),
    (ep = 0 → exec (.stall ep) s = .next (returned .nothing { s with ep0Stall := true, out := s.out ++ [.stall] }))
      ∧ (ep ≠ 0 → exec (.stall ep) s = .next (marked (.refused .endpointNot0) s))

/-- send and begin_tx arm the first chunk and return the effective length, or fault in flight. send (45_api.md R310) is begin_tx. With no TX descriptor owned, send and begin_tx set up PIPE[TX] with L = min(len, req), arm min(L, M) bytes at buf in the pipe's slot with the pipe's toggle, flip the slot, keep a zero-length packet owed exactly where L < req and the chunk is full, change nothing else and return L. With one owned the step is fault(R171): only the mark.
The rules formalised: R171. -/
def Obligations.SendArmsTheFirstChunk : Prop :=
  ∀ (buf : Addr) (len req : Len) (cb : Option CallbackId) (ctx : Addr) (s : State),
    let l : Len := if len.toNat ≤ req.toNat then len else req
    (noneOwned .tx s →
        exec (.send buf len req cb ctx) s = .next (returned (.len l) (armedTx buf len req cb ctx s))
          ∧ exec (.beginTx buf len req cb ctx) s = .next (returned (.len l) (armedTx buf len req cb ctx s)))
      ∧ (¬ noneOwned .tx s →
        exec (.send buf len req cb ctx) s = .next (marked (.fault .r171) s)
          ∧ exec (.beginTx buf len req cb ctx) s = .next (marked (.fault .r171) s))

/-- receive and begin_rx arm the first chunk and return the maximum, or fault where one is armed. receive (45_api.md R320) is begin_rx. With no RX descriptor owned, receive and begin_rx set up PIPE[RX], arm min(max, M) bytes at buf in the pipe's slot with the pipe's toggle, flip the slot, change nothing else and return max. With one owned the step is fault(R201): only the mark.
The rules formalised: R201. -/
def Obligations.ReceiveArmsTheFirstChunk : Prop :=
  ∀ (buf : Addr) (max : Len) (cb : Option CallbackId) (ctx : Addr) (s : State),
    (noneOwned .rx s →
        exec (.receive buf max cb ctx) s = .next (returned (.len max) (armedRx buf max cb ctx s))
          ∧ exec (.beginRx buf max cb ctx) s = .next (returned (.len max) (armedRx buf max cb ctx s)))
      ∧ (¬ noneOwned .rx s →
        exec (.receive buf max cb ctx) s = .next (marked (.fault .r201) s)
          ∧ exec (.beginRx buf max cb ctx) s = .next (marked (.fault .r201) s))

/-- send_small copies into the scratch buffer and sends, or returns the capacity error. send_small(src, len): above EP0_BUFSIZE it returns ERR and no state is written; else, with no TX descriptor owned and both ranges inside MEM, it copies len bytes to SCRATCH[PIPE[TX].pingpong], queues them capped at the current request's length (len where there is none) and returns the effective length; a range past the top is fault(R71), a TX descriptor owned fault(R171).
The rules formalised: R314. -/
def Obligations.SendSmallCopiesAndSends : Prop :=
  ∀ (src : Addr) (len : Len) (s : State),
    let a := s.scratch s.tx.pingpong
    let r : Len := match s.req with
                   | some q => q.length.setWidth 32
                   | none => len
    let l : Len := if len.toNat ≤ r.toNat then len else r
    let m := memPutList s.mem a.toNat (memGetList s.mem src.toNat len.toNat)
    (s.params.bufSize.toNat < len.toNat → exec (.sendSmall src len) s = .next (returned .err s))
      ∧ (len.toNat ≤ s.params.bufSize.toNat → src.toNat + len.toNat ≤ memSize → a.toNat + len.toNat ≤ memSize →
          (noneOwned .tx s →
              exec (.sendSmall src len) s = .next (returned (.len l) (armedTx a len r none 0 { s with mem := m })))
            ∧ (¬ noneOwned .tx s → exec (.sendSmall src len) s = .next (marked (.fault .r171) s)))
      ∧ (len.toNat ≤ s.params.bufSize.toNat → (memSize < src.toNat + len.toNat ∨ memSize < a.toNat + len.toNat) →
          exec (.sendSmall src len) s = .next (marked (.fault .r71) s))

/-- GET_STATUS, GET_CONFIGURATION and GET_INTERFACE queue their reply and enter the data stage. With room for the reply in SCRATCH[PIPE[TX].pingpong], from every state: outstanding transfers are cancelled, the request recorded, both toggles DATA1, the reply (two zero bytes; DEV.config; one zero byte) written to the scratch buffer and armed capped at the request's length, stage Data, nothing else changed. Where the reply would pass the top of MEM the step is fault(R71).
Derived from: 44_std_requests.md R271, 44_std_requests.md R278, 44_std_requests.md R280, 44_std_requests.md R277, 43_control_fsm.md R236, 43_control_fsm.md R232. -/
def Obligations.ReplyRequestsQueueTheirBytes : Prop :=
  ∀ (f : ReqFields) (s : State),
    let a := (s.scratch s.tx.pingpong).toNat
    let queued (c : BitVec 8) (bytes : List Byte) :=
      returned (.outcome .dataQueued) (replyState (f.toReq 0 c) bytes (requestState (f.toReq 0 c) s))
    (a + 2 ≤ memSize → exec (.getStatus f) s = .next (queued 0x00 [0, 0]))
      ∧ (memSize < a + 2 → exec (.getStatus f) s = .next (marked (.fault .r71) s))
      ∧ exec (.getConfiguration f) s = .next (queued 0x08 [s.devConfig])
      ∧ exec (.getInterface f) s = .next (queued 0x0A [0])

/-- CLEAR_FEATURE and SET_FEATURE have no effect but the status stage. With dir = 0, or with no RX descriptor owned: the SETUP's cancellation, the recorded request and the empty status transaction with DATA1 in the direction opposite the request's; nothing else, the stall included, changes. With dir = 1 and an RX descriptor owned the step is fault(R201).
Derived from: 44_std_requests.md R272, 44_std_requests.md R273, 43_control_fsm.md R238, 43_control_fsm.md R239. -/
def Obligations.FeatureRequestsOnlyRunTheStatusStage : Prop :=
  ∀ (f : ReqFields) (s : State),
    let done (c : BitVec 8) :=
      returned (.outcome .noData) (noDataState (f.toReq 0 c) (requestState (f.toReq 0 c) s))
    ((f.dir = 0 ∨ noneOwned .rx s) →
        exec (.clearFeature f) s = .next (done 0x01) ∧ exec (.setFeature f) s = .next (done 0x03))
      ∧ (f.dir ≠ 0 → ¬ noneOwned .rx s →
        exec (.clearFeature f) s = .next (marked (.fault .r201) s) ∧ exec (.setFeature f) s = .next (marked (.fault .r201) s))

/-- SET_ADDRESS stores value[6:0], sets SettingAddress and leaves HW.ADDR alone. With dir = 0, or with no RX descriptor owned, from every device state: DEV.pending_address = value[6:0], DEV.state = SettingAddress, the status stage is armed, and nothing else but the SETUP's own effects changes (HW.ADDR does not). With dir = 1 and an RX descriptor owned the step is fault(R201).
The rules formalised: R274. -/
def Obligations.SetAddressStoresAndDefers : Prop :=
  ∀ (f : ReqFields) (s : State),
    let r := f.toReq 0 0x05
    ((f.dir = 0 ∨ noneOwned .rx s) →
        exec (.setAddress f) s = .next (returned (.outcome .noData) (noDataState r
          { requestState r s with pendingAddress := f.value.setWidth 7, devState := .settingAddress })))
      ∧ (f.dir ≠ 0 → ¬ noneOwned .rx s → exec (.setAddress f) s = .next (marked (.fault .r201) s))

/-- SET_CONFIGURATION stores value[7:0] and sets Configured, for value 0 too. With dir = 0, or with no RX descriptor owned, from every device state: DEV.config = value[7:0], DEV.state = Configured, the status stage is armed, nothing else but the SETUP's own effects changes. With dir = 1 and an RX descriptor owned the step is fault(R201).
The rules formalised: R279. -/
def Obligations.SetConfigurationStoresAndConfigures : Prop :=
  ∀ (f : ReqFields) (s : State),
    let r := f.toReq 0 0x09
    ((f.dir = 0 ∨ noneOwned .rx s) →
        exec (.setConfiguration f) s = .next (returned (.outcome .noData) (noDataState r
          { requestState r s with devConfig := f.value.setWidth 8, devState := .configured })))
      ∧ (f.dir ≠ 0 → ¬ noneOwned .rx s → exec (.setConfiguration f) s = .next (marked (.fault .r201) s))

/-- GET_DESCRIPTOR queues the collaborator's bytes capped at the host's length, or is a protocol error. Where DescriptorLookup(value, index) has an entry (addr, len), the descriptor is queued by send capped at the request's length and the stage is Data, from every state; where it has none, with no RX descriptor owned, endpoint 0 is stalled and the control pipe re-armed, and with one owned the step is fault(R201).
Derived from: 44_std_requests.md R275, 44_std_requests.md R276, 43_control_fsm.md R236, 43_control_fsm.md R240. -/
def Obligations.GetDescriptorSendsOrRejects : Prop :=
  ∀ (f : ReqFields) (s : State),
    let r := f.toReq 0 0x06
    let entry := s.params.lookup.find? fun e => e.value == f.value && e.index == f.index
    (∀ e, entry = some e → exec (.getDescriptor f) s = .next (returned (.outcome .dataQueued)
        { armedTx e.addr e.len (f.length.setWidth 32) none 0 (requestState r s) with stage := .data }))
      ∧ (entry = none → noneOwned .rx s →
        exec (.getDescriptor f) s = .next (returned (.outcome .error) (protocolErrorState (requestState r s))))
      ∧ (entry = none → ¬ noneOwned .rx s → exec (.getDescriptor f) s = .next (marked (.fault .r201) s))

/-- SET_INTERFACE, unrecognised codes and the reserved type stall endpoint 0 and re-arm, DEV unchanged. For each of the ten rejecting rows with any operands: with no RX descriptor owned, the SETUP's cancellation, the recorded request, HW.EP0STALL = 1 with its record, stage Idle, the control pipe armed; DEV and everything else unchanged. With an RX descriptor owned the step is fault(R201).
Derived from: 44_std_requests.md R281, 44_std_requests.md R282, 44_std_requests.md R291, 43_control_fsm.md R240, 44_std_requests.md R292. -/
def Obligations.RejectedRequestsStallAndRearm : Prop :=
  ∀ (i : Instr) (r : ControlReq) (s : State), isRejectRow i = true → i.req? = some r →
    (noneOwned .rx s → exec i s = .next (returned (.outcome .error) (protocolErrorState (requestState r s))))
      ∧ (¬ noneOwned .rx s → exec i s = .next (marked (.fault .r201) s))

/-- Class and vendor requests without a supplied handler stall endpoint 0. Where ClassHandler has no entry for the request (the default), a class or vendor request is a protocol error as the other rejections are, DEV unchanged; with an RX descriptor owned the step is fault(R201).
Derived from: 44_std_requests.md R290, 44_std_requests.md R292, 43_control_fsm.md R240. -/
def Obligations.ClassRequestsRejectedByDefault : Prop :=
  ∀ (i : Instr) (r : ControlReq) (s : State), isClassRow i = true → i.req? = some r →
    s.params.classTable.find? (fun e => e.req == r) = none →
    (noneOwned .rx s → exec i s = .next (returned (.outcome .error) (protocolErrorState (requestState r s))))
      ∧ (¬ noneOwned .rx s → exec i s = .next (marked (.fault .r201) s))

/-- A supplied ClassHandler makes its calls, and its outcome is followed by the data stage, the status stage or the stall. For every entry e of ClassHandler, with u the SETUP's own effects and then e's calls stall(0): a stall of another endpoint is refused(endpoint-not-0). A receive, a send, or a send_small of at most EP0_BUFSIZE bytes (copied to the scratch buffer, capped at the request's length) is armed in u and the stage is Data. A receive with an RX descriptor owned is fault(R201), a copy range past the top of MEM fault(R71). Where no transfer is queued (none called, or send_small's capacity error) the handler's own answer decides: accepted, the status stage is armed; else endpoint 0 is stalled and re-armed; each is fault(R201) where it arms an RX descriptor while one is owned. That a handler is a table entry with its stalls first, and what it answers after a capacity error, is the model's choice (log 12).
Derived from: 44_std_requests.md R290, 44_std_requests.md R270, 92_eei_decisions.md D23, 43_control_fsm.md R236, 43_control_fsm.md R238, 43_control_fsm.md R240, 45_api.md R310, 45_api.md R314, 45_api.md R320, 45_api.md R326, 45_api.md R327. -/
def Obligations.SuppliedClassHandlerRuns : Prop :=
  ∀ (i : Instr) (r : ControlReq) (e : ClassEntry) (s : State), isClassRow i = true → i.req? = some r →
    s.params.classTable.find? (fun x => x.req == r) = some e →
    let u := stallsCalled e.stalls (requestState r s)
    ((∃ ep ∈ e.stalls, ep ≠ 0) → exec i s = .next (marked (.refused .endpointNot0) s))
      ∧ ((∀ ep ∈ e.stalls, ep = 0) →
        (∀ buf max cb ctx, e.transfer = some (.receive buf max cb ctx) →
            (noneOwned .rx s →
                exec i s = .next (returned (.outcome .dataQueued) { armedRx buf max cb ctx u with stage := .data }))
              ∧ (¬ noneOwned .rx s → exec i s = .next (marked (.fault .r201) s)))
          ∧ (∀ buf len req cb ctx, e.transfer = some (.send buf len req cb ctx) →
            exec i s = .next (returned (.outcome .dataQueued) { armedTx buf len req cb ctx u with stage := .data }))
          ∧ (∀ src len, e.transfer = some (.sendSmall src len) → len.toNat ≤ s.params.bufSize.toNat →
            let a := s.scratch s.tx.pingpong
            let m := memPutList s.mem a.toNat (memGetList s.mem src.toNat len.toNat)
            (src.toNat + len.toNat ≤ memSize → a.toNat + len.toNat ≤ memSize →
                exec i s = .next (returned (.outcome .dataQueued)
                  { armedTx a len (r.length.setWidth 32) none 0 { u with mem := m } with stage := .data }))
              ∧ ((memSize < src.toNat + len.toNat ∨ memSize < a.toNat + len.toNat) →
                exec i s = .next (marked (.fault .r71) s)))
          ∧ (queuesNone e s → e.accept = true →
            ((r.dir = 0 ∨ noneOwned .rx s) → exec i s = .next (returned (.outcome .noData) (noDataState r u)))
              ∧ (r.dir ≠ 0 → ¬ noneOwned .rx s → exec i s = .next (marked (.fault .r201) s)))
          ∧ (queuesNone e s → e.accept = false →
            (noneOwned .rx s → exec i s = .next (returned (.outcome .error) (protocolErrorState u)))
              ∧ (¬ noneOwned .rx s → exec i s = .next (marked (.fault .r201) s))))

/-- The five diagnostic events change no state. For every diagnostic event row with any operands, from every state: the next state is the same state.
The rules formalised: R246. -/
def Obligations.DiagnosticEventsChangeNothing : Prop :=
  ∀ (i : Instr) (s : State), isDiagRow i = true → exec i s = .next (returned .nothing s)

/-- A token and direction the peripheral cannot produce is fault(R247). For every illegal event row: with the named descriptor not owned the step is fault(R247), with it owned fault(R235), which is checked first; only the mark changes.
The rules formalised: R247. -/
def Obligations.IllegalEventsFault : Prop :=
  ∀ (i : Instr) (k : Fin 64) (s : State), illegalEventBd i = some k →
    ((s.bdAt k).own = false → exec i s = .next (marked (.fault .r247) s))
      ∧ ((s.bdAt k).own = true → exec i s = .next (marked (.fault .r235) s))

/-- An event of an endpoint other than 0 is refused. For every event row of another endpoint, with any token, even an illegal or diagnostic one, from every state: refused(endpoint-not-0), only the mark changes.
Derived from: 40_bd_directory.md R156, 30_encoding.md R111. -/
def Obligations.OtherEndpointsAreRefused : Prop :=
  ∀ (i : Instr) (s : State), isWrongEndpointRow i = true → exec i s = .next (marked (.refused .endpointNot0) s)

/-- A SETUP, OUT or IN event of a descriptor still owned is fault(R235). For the rows EV_SETUP_RX, EV_OUT_RX and EV_IN_TX: with the named descriptor owned the step is fault(R235), only the mark changes.
Derived from: 43_control_fsm.md R235, 60_exceptions.md R372. -/
def Obligations.EventOfAnOwnedDescriptorFaults : Prop :=
  ∀ (pp : Slot) (rsv : BitVec 2) (s : State),
    ((s.bdAt (bd0 .rx pp)).own = true →
        exec (.evSetupRx pp rsv) s = .next (marked (.fault .r235) s) ∧ exec (.evOutRx pp rsv) s = .next (marked (.fault .r235) s))
      ∧ ((s.bdAt (bd0 .tx pp)).own = true → exec (.evInTx pp rsv) s = .next (marked (.fault .r235) s))

/-- A SETUP event runs the row that the 8 bytes in its buffer select. With the descriptor not owned and its 8 bytes inside MEM, EV_SETUP_RX answers the state of the request row these bytes decode to (but for the outcome, which only the row returns); with the 8 bytes past the top of MEM it is fault(R71).
Derived from: 43_control_fsm.md R236, 43_control_fsm.md R235, 30_encoding.md R114. -/
def Obligations.SetupEventRunsTheRequestRow : Prop :=
  ∀ (pp : Slot) (rsv : BitVec 2) (s : State) (b : SetupData), (s.bdAt (bd0 .rx pp)).own = false →
    ((s.bdAt (bd0 .rx pp)).addr.toNat + 8 ≤ memSize → b.toList = memGetList s.mem (s.bdAt (bd0 .rx pp)).addr.toNat 8 →
        ∃ t : State, exec (instrOfReq (decodeReq b)) s = .next t ∧ exec (.evSetupRx pp rsv) s = .next (returned .nothing t))
      ∧ (memSize < (s.bdAt (bd0 .rx pp)).addr.toNat + 8 → exec (.evSetupRx pp rsv) s = .next (marked (.fault .r71) s))

/-- A SETUP event holding SET_ADDRESS stores the address and arms the status IN. With the descriptor not owned and a host-to-device SET_ADDRESS in its buffer, EV_SETUP_RX answers the state with the pending address stored, SettingAddress, the SETUP's own effects and an empty status IN armed with DATA1.
Derived from: 43_control_fsm.md R236, 44_std_requests.md R274, 43_control_fsm.md R239. -/
def Obligations.SetupEventOfSetAddress : Prop :=
  ∀ (pp : Slot) (rsv : BitVec 2) (s : State) (b : SetupData), (s.bdAt (bd0 .rx pp)).own = false →
    (s.bdAt (bd0 .rx pp)).addr.toNat + 8 ≤ memSize → b.toList = memGetList s.mem (s.bdAt (bd0 .rx pp)).addr.toNat 8 →
    (decodeReq b).type = 0 → (decodeReq b).request = 0x05 → (decodeReq b).dir = 0 →
    exec (.evSetupRx pp rsv) s = .next (returned .nothing (statusInState
      { requestState (decodeReq b) s with
        pendingAddress := (decodeReq b).value.setWidth 7, devState := .settingAddress }))

/-- An IN completion with more to send flips the toggle and arms the next chunk. EV_IN_TX in Data with its descriptor and the pipe's next slot not owned, and bytes remaining or a zero-length packet owed: the toggle flips, min(size - pos, M) bytes at data_buf + pos are armed with it, pos counts them, the slot flips, the owed packet is cleared by a short chunk; nothing else changes. An address past the top is fault(R71); the next slot owned is fault(R75).
Derived from: 41_tx_engine.md R177, 41_tx_engine.md R174, 43_control_fsm.md R237, 20_memory.md R75. -/
def Obligations.InEventArmsTheNextChunk : Prop :=
  ∀ (pp : Slot) (rsv : BitVec 2) (s : State), (s.bdAt (bd0 .tx pp)).own = false → s.stage = .data → ¬ txDone s →
    (s.tx.dataBuf.toNat + s.tx.pos.toNat < memSize →
        ((s.bdAt (bd0 .tx s.tx.pingpong)).own = false →
            exec (.evInTx pp rsv) s = .next (returned .nothing (txNextChunk s)))
          ∧ ((s.bdAt (bd0 .tx s.tx.pingpong)).own = true → exec (.evInTx pp rsv) s = .next (marked (.fault .r75) s)))
      ∧ (memSize ≤ s.tx.dataBuf.toNat + s.tx.pos.toNat → exec (.evInTx pp rsv) s = .next (marked (.fault .r71) s))

/-- The last IN completion of a data stage emits the callback and arms the status OUT. EV_IN_TX in Data with its descriptor not owned and nothing left to send: the toggle flips, the callback is taken and its record, with length 0, added before the status stage; then, with no RX descriptor owned, an empty status OUT is armed with DATA1 and the stage is Status; with one owned the step is fault(R201).
Derived from: 41_tx_engine.md R177, 43_control_fsm.md R237, 43_control_fsm.md R242, 43_control_fsm.md R239. -/
def Obligations.InEventEndsTheDataStage : Prop :=
  ∀ (pp : Slot) (rsv : BitVec 2) (s : State), (s.bdAt (bd0 .tx pp)).own = false → s.stage = .data → txDone s →
    (noneOwned .rx s → exec (.evInTx pp rsv) s = .next (returned .nothing (statusOutState (txFinished s))))
      ∧ (¬ noneOwned .rx s → exec (.evInTx pp rsv) s = .next (marked (.fault .r201) s))

/-- The status IN's completion commits a pending address and re-arms the control pipe. EV_IN_TX in Status with its descriptor not owned and nothing left to send: with no RX descriptor owned the stage is Idle, in SettingAddress the device state becomes Address, HW.ADDR the pending address and an AddrSet record is added, and the control pipe is armed for the next SETUP; with one owned the step is fault(R201).
Derived from: 43_control_fsm.md R243, 43_control_fsm.md R237, 43_control_fsm.md R231. -/
def Obligations.InEventEndsTheStatusStage : Prop :=
  ∀ (pp : Slot) (rsv : BitVec 2) (s : State), (s.bdAt (bd0 .tx pp)).own = false → s.stage = .status → txDone s →
    (noneOwned .rx s → exec (.evInTx pp rsv) s = .next (returned .nothing (statusDoneState (txFinished s))))
      ∧ (¬ noneOwned .rx s → exec (.evInTx pp rsv) s = .next (marked (.fault .r201) s))

/-- An IN or OUT completion in Idle stalls endpoint 0 and re-arms the control pipe. EV_IN_TX or EV_OUT_RX in Idle with its descriptor not owned: with no RX descriptor owned the state of ProtocolError, the pipe's toggle not flipped by an engine and no transfer advanced; with one owned fault(R201).
The rules formalised: R245. -/
def Obligations.DataEventInIdleIsAProtocolError : Prop :=
  ∀ (pp : Slot) (rsv : BitVec 2) (s : State), s.stage = .idle →
    ((s.bdAt (bd0 .tx pp)).own = false → noneOwned .rx s →
        exec (.evInTx pp rsv) s = .next (returned .nothing (protocolErrorState s)))
      ∧ ((s.bdAt (bd0 .tx pp)).own = false → ¬ noneOwned .rx s → exec (.evInTx pp rsv) s = .next (marked (.fault .r201) s))
      ∧ ((s.bdAt (bd0 .rx pp)).own = false → noneOwned .rx s →
        exec (.evOutRx pp rsv) s = .next (returned .nothing (protocolErrorState s)))
      ∧ ((s.bdAt (bd0 .rx pp)).own = false → ¬ noneOwned .rx s → exec (.evOutRx pp rsv) s = .next (marked (.fault .r201) s))

/-- A full OUT below the limit is counted and the next chunk armed. EV_OUT_RX in Data with its descriptor not owned, the transfer not ended by the received count and not overrun: the toggle flips, pos counts the received bytes, min(size - pos, M) bytes at data_buf + pos are armed, the slot flips; nothing else changes. An address past the top is fault(R71); the next slot owned is fault(R75).
Derived from: 42_rx_engine.md R206, 42_rx_engine.md R203, 43_control_fsm.md R237, 20_memory.md R75. -/
def Obligations.OutEventArmsTheNextChunk : Prop :=
  ∀ (pp : Slot) (rsv : BitVec 2) (s : State),
    let r := (s.bdAt (bd0 .rx pp)).bc.toNat
    (s.bdAt (bd0 .rx pp)).own = false → s.stage = .data → s.rx.pos.toNat + r ≤ s.rx.transferSize.toNat → ¬ rxDone r s →
    (s.rx.dataBuf.toNat + (s.rx.pos.toNat + r) < memSize →
        ((s.bdAt (bd0 .rx s.rx.pingpong)).own = false →
            exec (.evOutRx pp rsv) s = .next (returned .nothing (rxNextChunk r s)))
          ∧ ((s.bdAt (bd0 .rx s.rx.pingpong)).own = true → exec (.evOutRx pp rsv) s = .next (marked (.fault .r75) s)))
      ∧ (memSize ≤ s.rx.dataBuf.toNat + (s.rx.pos.toNat + r) → exec (.evOutRx pp rsv) s = .next (marked (.fault .r71) s))

/-- The OUT that ends a transfer emits the callback with the bytes received and moves the stage on. EV_OUT_RX with its descriptor not owned, the transfer ended by the received count and not overrun: the toggle flips, pos counts the bytes, the callback is taken and its record, with the total, added; then in Data, with no TX descriptor owned, the empty status IN is armed (owned: fault(R171)); in Status, with no RX descriptor owned, the status stage is done (owned: fault(R201)).
Derived from: 42_rx_engine.md R206, 43_control_fsm.md R237, 43_control_fsm.md R242, 43_control_fsm.md R243. -/
def Obligations.OutEventEndsTheTransfer : Prop :=
  ∀ (pp : Slot) (rsv : BitVec 2) (s : State),
    let r := (s.bdAt (bd0 .rx pp)).bc.toNat
    (s.bdAt (bd0 .rx pp)).own = false → s.rx.pos.toNat + r ≤ s.rx.transferSize.toNat → rxDone r s →
    (s.stage = .data → noneOwned .tx s →
        exec (.evOutRx pp rsv) s = .next (returned .nothing (statusInState (rxFinished r s))))
      ∧ (s.stage = .data → ¬ noneOwned .tx s → exec (.evOutRx pp rsv) s = .next (marked (.fault .r171) s))
      ∧ (s.stage = .status → noneOwned .rx s →
        exec (.evOutRx pp rsv) s = .next (returned .nothing (statusDoneState (rxFinished r s))))
      ∧ (s.stage = .status → ¬ noneOwned .rx s → exec (.evOutRx pp rsv) s = .next (marked (.fault .r201) s))

/-- An OUT of more bytes than the transfer has room for is fault(R206). EV_OUT_RX in Data or Status with its descriptor not owned and pos + bc above transfer_size: only the mark fault(R206).
Derived from: 42_rx_engine.md R206, 60_exceptions.md R372. -/
def Obligations.OutOverrunFaults : Prop :=
  ∀ (pp : Slot) (rsv : BitVec 2) (s : State), (s.bdAt (bd0 .rx pp)).own = false → s.stage ≠ .idle →
    s.rx.transferSize.toNat < s.rx.pos.toNat + (s.bdAt (bd0 .rx pp)).bc.toNat →
    exec (.evOutRx pp rsv) s = .next (marked (.fault .r206) s)

/-- A status transfer that reports More is fault(R237). EV_IN_TX in Status with its descriptor and the next slot not owned, an address inside MEM and the transfer not done, and EV_OUT_RX likewise: only the mark fault(R237).
Derived from: 43_control_fsm.md R237, 60_exceptions.md R372. -/
def Obligations.UnfinishedStatusTransferFaults : Prop :=
  ∀ (pp : Slot) (rsv : BitVec 2) (s : State), s.stage = .status →
    ((s.bdAt (bd0 .tx pp)).own = false → ¬ txDone s → s.tx.dataBuf.toNat + s.tx.pos.toNat < memSize →
        (s.bdAt (bd0 .tx s.tx.pingpong)).own = false → exec (.evInTx pp rsv) s = .next (marked (.fault .r237) s))
      ∧ ((s.bdAt (bd0 .rx pp)).own = false → ¬ rxDone (s.bdAt (bd0 .rx pp)).bc.toNat s →
        s.rx.pos.toNat + (s.bdAt (bd0 .rx pp)).bc.toNat ≤ s.rx.transferSize.toNat →
        s.rx.dataBuf.toNat + (s.rx.pos.toNat + (s.bdAt (bd0 .rx pp)).bc.toNat) < memSize →
        (s.bdAt (bd0 .rx s.rx.pingpong)).own = false → exec (.evOutRx pp rsv) s = .next (marked (.fault .r237) s))

/-- A completion step is the completion followed by its event, in one step. env_setup, env_in and env_out whose precondition holds and whose access lies inside MEM: where the event row at the completed state answers u without a new mark, the step answers u; where the event marks the state, the step answers the state it began in with that mark: the whole step is undone.
Derived from: 46_transaction_completion.md R340, 46_transaction_completion.md R341, 46_transaction_completion.md R342, 46_transaction_completion.md R343, 60_exceptions.md R375. -/
def Obligations.EnvironmentStepsDeliverTheirEvent : Prop :=
  ∀ (pp : Slot) (s : State), s.bad = none →
    (∀ (b : SetupData) (u : State), (s.bdAt (bd0 .rx pp)).own = true → (s.bdAt (bd0 .rx pp)).addr.toNat + 8 ≤ memSize →
        exec (.evSetupRx pp 0) (setupLanded pp b s) = .next u →
        exec (.envSetup (some pp) b) s = .next (match u.bad with | none => u | some m => marked m s))
      ∧ (∀ u : State, (s.bdAt (bd0 .tx pp)).own = true → s.ep0Stall = false →
        (s.bdAt (bd0 .tx pp)).addr.toNat + (s.bdAt (bd0 .tx pp)).bc.toNat ≤ memSize →
        exec (.evInTx pp 0) (inTaken pp s) = .next u →
        exec (.envIn (some pp)) s = .next (match u.bad with | none => u | some m => marked m s))
      ∧ (∀ (l : List Byte) (n : BitVec 16) (u : State), (s.bdAt (bd0 .rx pp)).own = true → s.ep0Stall = false →
        l.length = n.toNat → n.toNat ≤ (s.bdAt (bd0 .rx pp)).bc.toNat →
        (s.bdAt (bd0 .rx pp)).addr.toNat + n.toNat ≤ memSize →
        exec (.evOutRx pp 0) (outLanded pp l s) = .next u →
        exec (.envOut (some pp) (some (s.bdAt (bd0 .rx pp)).data01) n (some l)) s
          = .next (match u.bad with | none => u | some m => marked m s))

/-- The host's SET_ADDRESS lands, clears the stall and arms the status IN. With memory in canonical form (the invariant of StepKeepsTheInvariant), env_setup into an owned RX descriptor with 8 bytes of room inside MEM, whatever its count, toggle or the stall, with a host-to-device SET_ADDRESS: the bytes land, bc = 8, tok_pid = SETUP, the descriptor is handed back, the stall cleared, the pending address stored, SettingAddress, an empty status IN armed with DATA1; nothing else changes.
Derived from: 46_transaction_completion.md R341, 44_std_requests.md R274, 43_control_fsm.md R236. -/
def Obligations.EnvSetupOfSetAddress : Prop :=
  ∀ (pp : Slot) (s : State) (b : SetupData), Memory.wf s.mem = true →
    (s.bdAt (bd0 .rx pp)).own = true → (s.bdAt (bd0 .rx pp)).addr.toNat + 8 ≤ memSize →
    (decodeReq b).type = 0 → (decodeReq b).request = 0x05 → (decodeReq b).dir = 0 →
    exec (.envSetup (some pp) b) s = .next (returned .nothing (statusInState
      { requestState (decodeReq b) (setupLanded pp b s) with
        pendingAddress := (decodeReq b).value.setWidth 7, devState := .settingAddress }))

/-- The host's status IN reads the packet, commits a pending address and re-arms. env_in of an owned TX descriptor, not stalled, its bytes inside MEM, in Status with nothing left to send and no RX descriptor owned: HostIn with the descriptor's toggle and bytes is recorded, tok_pid = IN, the descriptor is handed back with bc as armed, and the status stage is done.
Derived from: 46_transaction_completion.md R342, 43_control_fsm.md R243. -/
def Obligations.EnvInOfTheStatusStage : Prop :=
  ∀ (pp : Slot) (s : State), (s.bdAt (bd0 .tx pp)).own = true → s.ep0Stall = false →
    (s.bdAt (bd0 .tx pp)).addr.toNat + (s.bdAt (bd0 .tx pp)).bc.toNat ≤ memSize →
    s.stage = .status → txDone s → noneOwned .rx s →
    exec (.envIn (some pp)) s = .next (returned .nothing (statusDoneState (txFinished (inTaken pp s))))

/-- The host's last OUT lands, emits the callback and arms the status IN. env_out of n bytes with the expected PID into an owned RX descriptor, not stalled, n at most bc, inside MEM, in Data, ending the transfer and not overrunning it, with no TX descriptor owned: the bytes land, bc = n, tok_pid = OUT, the descriptor is handed back, the transfer finished and the empty status IN armed.
Derived from: 46_transaction_completion.md R343, 42_rx_engine.md R206, 43_control_fsm.md R242. -/
def Obligations.EnvOutEndsTheDataStage : Prop :=
  ∀ (pp : Slot) (n : BitVec 16) (l : List Byte) (s : State), (s.bdAt (bd0 .rx pp)).own = true → s.ep0Stall = false →
    l.length = n.toNat → n.toNat ≤ (s.bdAt (bd0 .rx pp)).bc.toNat → (s.bdAt (bd0 .rx pp)).addr.toNat + n.toNat ≤ memSize →
    s.stage = .data → s.rx.pos.toNat + n.toNat ≤ s.rx.transferSize.toNat → rxDone n.toNat s → noneOwned .tx s →
    exec (.envOut (some pp) (some (s.bdAt (bd0 .rx pp)).data01) n (some l)) s
      = .next (returned .nothing (statusInState (rxFinished n.toNat (outLanded pp l s))))

/-- A diagnostic report changes nothing but a descriptor it hands back. env_diag with a written slot and release choice, from every state: where the environment releases an owned descriptor, tok_pid is the token and own is 0; otherwise nothing changes. Where the step does not say whether it releases, it acts as one of the two, taking one free value: that last clause is the model's choice (log 9).
Derived from: 46_transaction_completion.md R344, 43_control_fsm.md R246, 93_implementation_defined.md U4. -/
def Obligations.EnvDiagReleasesOrChangesNothing : Prop :=
  ∀ (tok : DiagTok) (d : Dir) (pp : Slot) (s : State),
    let i := bd0 d pp
    let released (t : State) : State := { t with bd := t.bd.set i { t.bdAt i with tokPid := tok.code, own := false } }
    exec (.envDiag tok d (some pp) (some false)) s = .next (returned .nothing s)
      ∧ ((s.bdAt i).own = false → exec (.envDiag tok d (some pp) (some true)) s = .next (returned .nothing s))
      ∧ ((s.bdAt i).own = true → exec (.envDiag tok d (some pp) (some true)) s = .next (returned .nothing (released s)))
      ∧ ∃ b : Bool, exec (.envDiag tok d (some pp) none) s
          = exec (.envDiag tok d (some pp) (some b)) { s with fresh := s.fresh + 1 }

/-- An environment step whose precondition fails changes nothing. env_setup into a descriptor not owned; env_in and env_out of one not owned, or while stalled; env_out with another data PID or with more bytes than armed: the state is unchanged. That such an attempt is a step that changes nothing is the model's choice (log 8).
Derived from: 46_transaction_completion.md R341, 46_transaction_completion.md R342, 46_transaction_completion.md R343, 46_transaction_completion.md R345, 46_transaction_completion.md R346. -/
def Obligations.FailedPreconditionsAreNoStep : Prop :=
  ∀ (pp : Slot) (b : SetupData) (pid : Toggle) (n : BitVec 16) (l : List Byte) (s : State),
    ((s.bdAt (bd0 .rx pp)).own = false → exec (.envSetup (some pp) b) s = .next (returned .noStep s))
      ∧ (((s.bdAt (bd0 .tx pp)).own = false ∨ s.ep0Stall = true) → exec (.envIn (some pp)) s = .next (returned .noStep s))
      ∧ (((s.bdAt (bd0 .rx pp)).own = false ∨ s.ep0Stall = true ∨ pid ≠ (s.bdAt (bd0 .rx pp)).data01
            ∨ (s.bdAt (bd0 .rx pp)).bc.toNat < n.toNat) →
          exec (.envOut (some pp) (some pid) n (some l)) s = .next (returned .noStep s))

/-- A script line that names no slot acts on the owned descriptor of its direction. Where the descriptor of slot x is the owned one of the direction (the other is not owned), env_setup, env_in, env_out and env_diag without a slot are the steps with slot x; an OUT without a PID is the OUT with the descriptor's toggle (logs 10, 11).
Derived from: 30_encoding.md R117, 10_state.md R39. -/
def Obligations.ScriptFormTakesTheOwnedDescriptor : Prop :=
  ∀ (x : Slot) (s : State),
    ((s.bdAt (bd0 .rx x)).own = true → (s.bdAt (bd0 .rx (flipSlot x))).own = false →
        (∀ b, exec (.envSetup none b) s = exec (.envSetup (some x) b) s)
          ∧ (∀ pid n l, exec (.envOut none pid n l) s = exec (.envOut (some x) pid n l) s)
          ∧ (∀ n l, exec (.envOut none none n l) s = exec (.envOut (some x) (some (s.bdAt (bd0 .rx x)).data01) n l) s)
          ∧ ∀ tok rel, exec (.envDiag tok .rx none rel) s = exec (.envDiag tok .rx (some x) rel) s)
      ∧ ((s.bdAt (bd0 .tx x)).own = true → (s.bdAt (bd0 .tx (flipSlot x))).own = false →
        exec (.envIn none) s = exec (.envIn (some x)) s
          ∧ ∀ tok rel, exec (.envDiag tok .tx none rel) s = exec (.envDiag tok .tx (some x) rel) s)

/-- No instruction stops the machine. For every instruction and state exec answers a next state: a fault or a refusal of the spec is the mark in a next state (log 7).
Derived from: 60_exceptions.md R375, 00_scope.md R12. -/
def Obligations.EveryInstructionAnswersANextState : Prop :=
  ∀ (i : Instr) (s : State), ∃ t : State, exec i s = .next t

/-- A step happens entirely, or its only effect is the mark. For every instruction, from a state with no mark: if the next state has a mark, it is the state the step began in with that mark and nothing returned; no other register, descriptor, byte of memory or trace record has changed.
Derived from: 60_exceptions.md R375, 00_scope.md R12, 20_memory.md R72. -/
def Obligations.FailingStepsOnlyMark : Prop :=
  ∀ (i : Instr) (s t : State) (m : BadMark), s.bad = none → exec i s = .next t → t.bad = some m → t = marked m s

/-- No step, not even a reset step, clears or changes the mark. For every state with a mark, if the machine's step answers a next state, the mark is the same; State.reset has none. The rules say that the mark is never cleared; that the first reason is kept where a later step fails too, and that steps after a mark run, is the model's choice (log 7).
Derived from: 10_state.md R46, 70_reset_and_hazards.md R400, 00_scope.md R12. -/
def Obligations.TheMarkIsNeverCleared : Prop :=
  State.reset.bad = none
    ∧ ∀ (s t : State) (m : BadMark), s.bad = some m → step s = .next t → t.bad = some m

/-- HW.ADDR changes only in a reset or at a status stage's end, to the pending address. For every instruction and state: if the step changes HW.ADDR, it is reset or busreset (the new value is 0), or the stage was Status, the device state SettingAddress, and the next state has HW.ADDR = the pending address, device state Address and stage Idle. So no request's SETUP handling changes it.
Derived from: 43_control_fsm.md R243, 43_control_fsm.md R244, 70_reset_and_hazards.md R426, 44_std_requests.md R292. -/
def Obligations.AddressChangesOnlyAtTheCommit : Prop :=
  ∀ (i : Instr) (s t : State), exec i s = .next t → t.hwAddr ≠ s.hwAddr →
    ((i = .reset ∨ i = .busreset) ∧ t.hwAddr = 0)
      ∨ (s.stage = .status ∧ s.devState = .settingAddress ∧ t.hwAddr = s.pendingAddress ∧ t.devState = .address
          ∧ t.stage = .idle ∧ t.pendingAddress = s.pendingAddress)

/-- Every step keeps the invariant of the state. For every state with the invariant (memory canonical, legal arguments, pos at most transfer_size and ep_maxsize = M in both pipes, no packet owed by RX, owned descriptors as armed, descriptors of other endpoints not owned), if the machine's step answers a next state, it has the invariant.
Derived from: 10_state.md R39, 10_state.md R38, 10_state.md R43, 20_memory.md R75. -/
def Obligations.StepKeepsTheInvariant : Prop :=
  ∀ s t : State, s.Inv → step s = .next t → t.Inv

/-- The state after reset meets the three invariants. State.reset has the invariant of the state, the last-armed invariant and the one-owned invariant.
Derived from: 10_state.md R39, 10_state.md R50, 46_transaction_completion.md R349. -/
def Obligations.ResetMeetsTheInvariants : Prop :=
  State.reset.Inv ∧ State.reset.LastArmedOwned ∧ State.reset.OneOwned

/-- At most one descriptor of a pipe is owned, and it is the one armed last. For every instruction and every state in which each owned endpoint-0 descriptor is the one its pipe armed last, the next state is such a state; for a raw EV_IN_TX or EV_OUT_RX, which comes after the environment's completion, the premise is added that no descriptor of that direction is owned any more.
Derived from: 10_state.md R39, 41_tx_engine.md R171, 42_rx_engine.md R201. -/
def Obligations.OnlyTheLastArmedDescriptorIsOwned : Prop :=
  ∀ (i : Instr) (s t : State), s.LastArmedOwned →
    (∀ pp rsv, i = .evInTx pp rsv → noneOwned .tx s) → (∀ pp rsv, i = .evOutRx pp rsv → noneOwned .rx s) →
    exec i s = .next t → t.LastArmedOwned

/-- In runs of the environment's steps at most one endpoint-0 descriptor is owned. For every environment or reset step, from every state in which at most one endpoint-0 descriptor is owned and in Idle none of TX, the next state is such a state: API calls are made only from the handler, and the table form of ClassHandler queues at most one transfer (log 12).
Derived from: 46_transaction_completion.md R349, 45_api.md R330, 70_reset_and_hazards.md R423. -/
def Obligations.OneDescriptorIsOwnedAtATime : Prop :=
  ∀ (i : Instr) (s t : State), isEnvironmentStep i = true → s.OneOwned → exec i s = .next t → t.OneOwned

/-- A SETUP discards the transfer in progress without its callback. For every SETUP step (env_setup, EV_SETUP_RX or a request row) and state, the next state's trace is the old one with records added of which none is a callback record; and where the step sets no mark, PIPE[RX].callback and PIPE[TX].callback no longer hold the old transfer's unless a ClassHandler set it again: with no supplied handler both are none.
Derived from: 43_control_fsm.md R244, 43_control_fsm.md R232, 43_control_fsm.md R236. -/
def Obligations.SetupEmitsNoCallback : Prop :=
  ∀ (i : Instr) (s t : State), (i.req?.isSome = true ∨ (∃ pp rsv, i = .evSetupRx pp rsv) ∨ (∃ pp b, i = .envSetup pp b)) →
    exec i s = .next t →
    (∃ l : List TraceRec, t.out = s.out ++ l ∧ ∀ e ∈ l, e.isCb = false)
      ∧ (s.bad = none → t.bad = none → t.ret ≠ .noStep → s.params.classTable = [] →
          t.rx.callback = none ∧ t.tx.callback = none)

/-- GET_CONFIGURATION after SET_CONFIGURATION(v) queues exactly the byte v[7:0]. From a state with the invariant and no mark: if SET_CONFIGURATION and then GET_CONFIGURATION (with a length of at least 1) answer next states without a mark, the TX descriptor armed by the second is owned, holds one byte, and that byte in memory is value[7:0] of the first.
Derived from: 44_std_requests.md R292, 44_std_requests.md R278, 44_std_requests.md R279. -/
def Obligations.ConfigurationRoundTrip : Prop :=
  ∀ (f g : ReqFields) (s t u : State), s.Inv → s.bad = none → 1 ≤ g.length.toNat →
    exec (.setConfiguration f) s = .next t → exec (.getConfiguration g) t = .next u → u.bad = none →
    let b := u.bdAt (bd0 .tx t.tx.pingpong)
    b.own = true ∧ b.bc = 1 ∧ memGet u.mem b.addr.toNat = f.value.setWidth 8

/-- Steps that store nothing leave every byte of memory as it was. For every instruction other than the reply requests, class and vendor requests, the SETUP event, send_small, env_setup, env_out and reset, and every state: every address reads after the step as before.
Derived from: 20_memory.md R84, 41_tx_engine.md R178, 42_rx_engine.md R208. -/
def Obligations.NonStoringStepsLeaveMemory : Prop :=
  ∀ (i : Instr) (s t : State), mayStore i = false → exec i s = .next t → ∀ a : Nat, memGet t.mem a = memGet s.mem a

/-- Storing steps change only the bytes of their buffer. A byte outside SCRATCH[PIPE[TX].pingpong] (EP0_BUFSIZE bytes) reads as before after a reply request, a class or vendor request, the SETUP event and send_small; after env_setup a byte outside it and outside the 8 bytes at the descriptor's address; after env_out of n bytes a byte outside the n bytes at the descriptor's address.
Derived from: 44_std_requests.md R277, 45_api.md R314, 46_transaction_completion.md R341, 46_transaction_completion.md R343. -/
def Obligations.StoresStayInTheirBuffers : Prop :=
  ∀ (s t : State) (c : Nat), s.params.bufSizeOk = true →
    let a := (s.scratch s.tx.pingpong).toNat
    let outside := c < a ∨ a + s.params.bufSize.toNat ≤ c
    (∀ i : Instr, (i.req?.isSome = true ∨ (∃ pp rsv, i = .evSetupRx pp rsv) ∨ (∃ src len, i = .sendSmall src len)) →
        exec i s = .next t → outside → memGet t.mem c = memGet s.mem c)
      ∧ (∀ (pp : Slot) (b : SetupData), exec (.envSetup (some pp) b) s = .next t → outside →
        (c < (s.bdAt (bd0 .rx pp)).addr.toNat ∨ (s.bdAt (bd0 .rx pp)).addr.toNat + 8 ≤ c) → memGet t.mem c = memGet s.mem c)
      ∧ (∀ (pp : Slot) (pid : Option Toggle) (n : BitVec 16) (l : Option (List Byte)),
        exec (.envOut (some pp) pid n l) s = .next t →
        (c < (s.bdAt (bd0 .rx pp)).addr.toNat ∨ (s.bdAt (bd0 .rx pp)).addr.toNat + n.toNat ≤ c) →
        memGet t.mem c = memGet s.mem c)

/-- MemRead gives what MemWrite stored, elsewhere what was there, and no access wraps. In memory in canonical form: after a write of bytes a read of the same range gives them and any read that does not meet it gives what it gave before; the write keeps the canonical form; an empty access changes nothing; a read or write whose last byte would lie past 2^32 - 1 is fault(R71).
The rules formalised: R71. -/
def Obligations.MemoryReadsAndWrites : Prop :=
  (∀ (a : Addr) (l : List Byte) (s t : State), Memory.wf s.mem = true → memWrite a l s = .ok t →
      Memory.wf t.mem = true ∧ memRead a l.length t = .ok l
        ∧ ∀ (c : Addr) (n : Nat), (c.toNat + n ≤ a.toNat ∨ a.toNat + l.length ≤ c.toNat) → memRead c n t = memRead c n s)
    ∧ (∀ (a : Addr) (s : State), memRead a 0 s = .ok [] ∧ memWrite a [] s = .ok s)
    ∧ ∀ (a : Addr) (l : List Byte) (n : Nat) (s : State),
      (memSize < a.toNat + n → memRead a n s = .error (.fault .r71))
        ∧ (a.toNat + n ≤ memSize →
            memRead a n s = .ok ((List.range n).map fun k => memGet s.mem (a.toNat + k)))
        ∧ (memSize < a.toNat + l.length → memWrite a l s = .error (.fault .r71))

/-- A TX transfer takes exactly C(L) transactions. With no TX descriptor owned, M one of 8, 16, 32, 64, and the buffer with its end inside MEM: after begin_tx of effective length L, handing each armed chunk back and advancing finishes after exactly C(L) transactions: ceil(L/M) where M does not divide L, L/M where it does and L = req, one more and empty where L < req, and 1 for L = 0.
Derived from: 41_tx_engine.md R175, 41_tx_engine.md R171, 41_tx_engine.md R174, 41_tx_engine.md R177. -/
def Obligations.TransferTakesTheStatedTransactions : Prop :=
  ∀ (buf : Addr) (len req : Len) (cb : Option CallbackId) (ctx : Addr) (s t : State) (l : Len),
    s.Inv → noneOwned .tx s → buf.toNat + (min len.toNat req.toNat) < memSize →
    beginTx buf len req cb ctx s = .ok (t, l) →
    let c := chunkCount l.toNat req.toNat s.params.maxPacket.toNat
    txTransactions c t = some c
end

