-- ==== Sys2Proof/Laws/Memory.lean ====
section
/-! SUPPORT. The laws of memory: a read after a write, and that every memory operation keeps the canonical form. -/

namespace Sys2Proof.Machine

open Sys2Proof

/-! ### One byte -/

theorem memGet_below (m : Memory) (lo a : Nat) (h : memWfFrom lo m = true) (ha : a < lo) : memGet m a = memDefault := by
  induction m generalizing lo with
  | nil => rfl
  | cons e r ih =>
    obtain ⟨k, v⟩ := e
    simp only [memWfFrom, Bool.and_eq_true, decide_eq_true_eq] at h
    have hk : k ≠ a := by omega
    simp only [memGet, if_neg hk]
    exact ih (k + 1) h.2 (by omega)

theorem memWfFrom_mono (m : Memory) (lo lo' : Nat) (h : memWfFrom lo m = true) (hl : lo' ≤ lo) : memWfFrom lo' m = true := by
  cases m with
  | nil => rfl
  | cons e r =>
    obtain ⟨k, v⟩ := e
    simp only [memWfFrom, Bool.and_eq_true, decide_eq_true_eq] at h ⊢
    exact ⟨⟨⟨by omega, h.1.1.2⟩, h.1.2⟩, h.2⟩

/-- Storing a byte inside `MEM` keeps the canonical form. -/
theorem memPut_wfFrom (m : Memory) (lo a : Nat) (b : Byte) (h : memWfFrom lo m = true) (hl : lo ≤ a) (ha : a < memSize) :
    memWfFrom lo (memPut m a b) = true := by
  induction m generalizing lo with
  | nil =>
    simp only [memPut]
    split
    · rfl
    · simp_all [memWfFrom]
  | cons e r ih =>
    obtain ⟨k, v⟩ := e
    have h0 := h
    simp only [memWfFrom, Bool.and_eq_true, decide_eq_true_eq] at h
    simp only [memPut]
    split
    · split
      · exact h0
      · simp only [memWfFrom, Bool.and_eq_true, decide_eq_true_eq]
        refine ⟨⟨⟨hl, ha⟩, by simp_all⟩, ⟨⟨by omega, h.1.1.2⟩, h.1.2⟩, h.2⟩
    · split
      · split
        · exact memWfFrom_mono r (k + 1) lo h.2 (by omega)
        · simp only [memWfFrom, Bool.and_eq_true, decide_eq_true_eq]
          refine ⟨⟨⟨hl, ha⟩, by simp_all⟩, ?_⟩
          exact memWfFrom_mono r (k + 1) (a + 1) h.2 (by omega)
      · simp only [memWfFrom, Bool.and_eq_true, decide_eq_true_eq]
        exact ⟨⟨⟨h.1.1.1, h.1.1.2⟩, h.1.2⟩, ih (k + 1) h.2 (by omega)⟩

theorem memPut_wf (m : Memory) (a : Nat) (b : Byte) (h : Memory.wf m = true) (ha : a < memSize) :
    Memory.wf (memPut m a b) = true :=
  memPut_wfFrom m 0 a b h (Nat.zero_le a) ha

/-- The byte stored is the byte read. -/
theorem memGet_memPut_from (m : Memory) (lo a : Nat) (b : Byte) (h : memWfFrom lo m = true) :
    memGet (memPut m a b) a = b := by
  induction m generalizing lo with
  | nil =>
    simp only [memPut]
    split
    · simp_all [memGet]
    · simp [memGet]
  | cons e r ih =>
    obtain ⟨k, v⟩ := e
    have h0 := h
    simp only [memWfFrom, Bool.and_eq_true, decide_eq_true_eq] at h
    simp only [memPut]
    split
    · rename_i hlt
      split
      · have hk : k ≠ a := by omega
        rename_i hb
        simp only [memGet, if_neg hk, hb]
        exact memGet_below r (k + 1) a h.2 (by omega)
      · simp [memGet]
    · split
      · rename_i hak
        split
        · rename_i hb
          rw [hb]
          exact memGet_below r (k + 1) a h.2 (by omega)
        · simp [memGet]
      · rename_i hlt hne
        have hk : k ≠ a := fun e => hne e.symm
        simp only [memGet, if_neg hk]
        exact ih (k + 1) h.2

theorem memGet_memPut_same (m : Memory) (a : Nat) (b : Byte) (h : Memory.wf m = true) : memGet (memPut m a b) a = b :=
  memGet_memPut_from m 0 a b h

/-- Every other byte is as before. -/
theorem memGet_memPut_ne (m : Memory) (a c : Nat) (b : Byte) (hc : c ≠ a) : memGet (memPut m a b) c = memGet m c := by
  induction m with
  | nil =>
    simp only [memPut]
    split
    · rfl
    · simp [memGet, Ne.symm hc]
  | cons e r ih =>
    obtain ⟨k, v⟩ := e
    simp only [memPut]
    split
    · split
      · rfl
      · simp [memGet, Ne.symm hc]
    · split
      · rename_i hak
        subst hak
        split
        · simp [memGet, Ne.symm hc]
        · simp [memGet, Ne.symm hc]
      · simp only [memGet, ih]

/-! ### Runs of bytes -/

theorem memPutList_wf (l : List Byte) (m : Memory) (a : Nat) (h : Memory.wf m = true) (ha : a + l.length ≤ memSize) :
    Memory.wf (memPutList m a l) = true := by
  induction l generalizing m a with
  | nil => exact h
  | cons b r ih =>
    simp only [List.length_cons] at ha
    exact ih (memPut m a b) (a + 1) (memPut_wf m a b h (by omega)) (by omega)

/-- A byte outside the stored run is as before. -/
theorem memGet_memPutList_outside (l : List Byte) (m : Memory) (a c : Nat) (hc : c < a ∨ a + l.length ≤ c) :
    memGet (memPutList m a l) c = memGet m c := by
  induction l generalizing m a with
  | nil => rfl
  | cons b r ih =>
    simp only [List.length_cons] at hc
    simp only [memPutList]
    rw [ih (memPut m a b) (a + 1) (by omega), memGet_memPut_ne m a c b (by omega)]

/-- A byte inside the stored run is the stored one. -/
theorem memGet_memPutList_inside (l : List Byte) (m : Memory) (a k : Nat) (h : Memory.wf m = true)
    (ha : a + l.length ≤ memSize) (hk : k < l.length) : memGet (memPutList m a l) (a + k) = l[k] := by
  induction l generalizing m a k with
  | nil => simp at hk
  | cons b r ih =>
    simp only [List.length_cons] at ha hk
    simp only [memPutList]
    have hw := memPut_wf m a b h (by omega)
    cases k with
    | zero =>
      have h1 := memGet_memPutList_outside r (memPut m a b) (a + 1) a (by omega)
      have h2 := memGet_memPut_same m a b h
      exact h1.trans h2
    | succ j =>
      have := ih (memPut m a b) (a + 1) j hw (by omega) (by omega)
      rw [show a + (j + 1) = a + 1 + j by omega, this]
      rfl

@[simp] theorem memGetList_length (m : Memory) (a n : Nat) : (memGetList m a n).length = n := by
  induction n generalizing a with
  | zero => rfl
  | succ n ih => simp [memGetList, ih]

/-- Byte `k` of a read. -/
theorem memGetList_getElem (m : Memory) (a n k : Nat) (h : k < (memGetList m a n).length) :
    (memGetList m a n)[k] = memGet m (a + k) := by
  induction n generalizing a k with
  | zero => simp [memGetList] at h
  | succ n ih =>
    cases k with
    | zero => simp [memGetList]
    | succ j =>
      simp only [memGetList, List.getElem_cons_succ]
      rw [ih]
      congr 1
      omega

/-! ### What the memory operations answer -/

/-- `MemRead` answers the bytes, or fault(R71). -/
theorem memRead_ok_iff (a : Addr) (n : Nat) (s : State) (l : List Byte) :
    memRead a n s = .ok l ↔ a.toNat + n ≤ memSize ∧ l = memGetList s.mem a.toNat n := by
  unfold memRead
  split <;> simp_all [eq_comm]

/-- `MemWrite` answers the state with the bytes stored, or fault(R71). -/
theorem memWrite_ok_iff (a : Addr) (l : List Byte) (s t : State) :
    memWrite a l s = .ok t ↔ a.toNat + l.length ≤ memSize ∧ t = s.setMem (memPutList s.mem a.toNat l) := by
  unfold memWrite
  split <;> simp_all [eq_comm]

/-- `MemRead` of 8 bytes answers them, or fault(R71). -/
theorem memReadSetup_ok_iff (a : Addr) (s : State) (b : SetupData) :
    memReadSetup a s = .ok b ↔ a.toNat + 8 ≤ memSize ∧ b.toList = memGetList s.mem a.toNat 8 := by
  unfold memReadSetup
  cases b
  split <;> simp_all [SetupData.toList, memGetList, eq_comm, Nat.add_assoc]

end Sys2Proof.Machine
end

