-- ==== Sys2Proof/Laws/State.lean ====
section
/-! SUPPORT. One lemma per field of State per update, so that no proof unfolds a record update. -/

namespace Sys2Proof.Machine

open Sys2Proof

/-! ### `setMem` -/

@[simp] theorem State.setMem_devState (s : State) (m : Memory) : (s.setMem m).devState = s.devState := rfl
@[simp] theorem State.setMem_pendingAddress (s : State) (m : Memory) : (s.setMem m).pendingAddress = s.pendingAddress := rfl
@[simp] theorem State.setMem_devConfig (s : State) (m : Memory) : (s.setMem m).devConfig = s.devConfig := rfl
@[simp] theorem State.setMem_stage (s : State) (m : Memory) : (s.setMem m).stage = s.stage := rfl
@[simp] theorem State.setMem_req (s : State) (m : Memory) : (s.setMem m).req = s.req := rfl
@[simp] theorem State.setMem_hwAddr (s : State) (m : Memory) : (s.setMem m).hwAddr = s.hwAddr := rfl
@[simp] theorem State.setMem_ep0Stall (s : State) (m : Memory) : (s.setMem m).ep0Stall = s.ep0Stall := rfl
@[simp] theorem State.setMem_rx (s : State) (m : Memory) : (s.setMem m).rx = s.rx := rfl
@[simp] theorem State.setMem_tx (s : State) (m : Memory) : (s.setMem m).tx = s.tx := rfl
@[simp] theorem State.setMem_bd (s : State) (m : Memory) : (s.setMem m).bd = s.bd := rfl
@[simp] theorem State.setMem_mem (s : State) (m : Memory) : (s.setMem m).mem = m := rfl
@[simp] theorem State.setMem_out (s : State) (m : Memory) : (s.setMem m).out = s.out := rfl
@[simp] theorem State.setMem_bad (s : State) (m : Memory) : (s.setMem m).bad = s.bad := rfl
@[simp] theorem State.setMem_params (s : State) (m : Memory) : (s.setMem m).params = s.params := rfl
@[simp] theorem State.setMem_inputs (s : State) (m : Memory) : (s.setMem m).inputs = s.inputs := rfl
@[simp] theorem State.setMem_ret (s : State) (m : Memory) : (s.setMem m).ret = s.ret := rfl
@[simp] theorem State.setMem_fresh (s : State) (m : Memory) : (s.setMem m).fresh = s.fresh := rfl

/-! ### `setBd` -/

@[simp] theorem State.setBd_devState (s : State) (i : Fin 64) (b : Bd) : (s.setBd i b).devState = s.devState := rfl
@[simp] theorem State.setBd_pendingAddress (s : State) (i : Fin 64) (b : Bd) : (s.setBd i b).pendingAddress = s.pendingAddress := rfl
@[simp] theorem State.setBd_devConfig (s : State) (i : Fin 64) (b : Bd) : (s.setBd i b).devConfig = s.devConfig := rfl
@[simp] theorem State.setBd_stage (s : State) (i : Fin 64) (b : Bd) : (s.setBd i b).stage = s.stage := rfl
@[simp] theorem State.setBd_req (s : State) (i : Fin 64) (b : Bd) : (s.setBd i b).req = s.req := rfl
@[simp] theorem State.setBd_hwAddr (s : State) (i : Fin 64) (b : Bd) : (s.setBd i b).hwAddr = s.hwAddr := rfl
@[simp] theorem State.setBd_ep0Stall (s : State) (i : Fin 64) (b : Bd) : (s.setBd i b).ep0Stall = s.ep0Stall := rfl
@[simp] theorem State.setBd_rx (s : State) (i : Fin 64) (b : Bd) : (s.setBd i b).rx = s.rx := rfl
@[simp] theorem State.setBd_tx (s : State) (i : Fin 64) (b : Bd) : (s.setBd i b).tx = s.tx := rfl
@[simp] theorem State.setBd_bd (s : State) (i : Fin 64) (b : Bd) : (s.setBd i b).bd = s.bd.set i b := rfl
@[simp] theorem State.setBd_mem (s : State) (i : Fin 64) (b : Bd) : (s.setBd i b).mem = s.mem := rfl
@[simp] theorem State.setBd_out (s : State) (i : Fin 64) (b : Bd) : (s.setBd i b).out = s.out := rfl
@[simp] theorem State.setBd_bad (s : State) (i : Fin 64) (b : Bd) : (s.setBd i b).bad = s.bad := rfl
@[simp] theorem State.setBd_params (s : State) (i : Fin 64) (b : Bd) : (s.setBd i b).params = s.params := rfl
@[simp] theorem State.setBd_inputs (s : State) (i : Fin 64) (b : Bd) : (s.setBd i b).inputs = s.inputs := rfl
@[simp] theorem State.setBd_ret (s : State) (i : Fin 64) (b : Bd) : (s.setBd i b).ret = s.ret := rfl
@[simp] theorem State.setBd_fresh (s : State) (i : Fin 64) (b : Bd) : (s.setBd i b).fresh = s.fresh := rfl

/-! ### `releaseAllBd` -/

@[simp] theorem State.releaseAllBd_devState (s : State) : (s.releaseAllBd).devState = s.devState := rfl
@[simp] theorem State.releaseAllBd_pendingAddress (s : State) : (s.releaseAllBd).pendingAddress = s.pendingAddress := rfl
@[simp] theorem State.releaseAllBd_devConfig (s : State) : (s.releaseAllBd).devConfig = s.devConfig := rfl
@[simp] theorem State.releaseAllBd_stage (s : State) : (s.releaseAllBd).stage = s.stage := rfl
@[simp] theorem State.releaseAllBd_req (s : State) : (s.releaseAllBd).req = s.req := rfl
@[simp] theorem State.releaseAllBd_hwAddr (s : State) : (s.releaseAllBd).hwAddr = s.hwAddr := rfl
@[simp] theorem State.releaseAllBd_ep0Stall (s : State) : (s.releaseAllBd).ep0Stall = s.ep0Stall := rfl
@[simp] theorem State.releaseAllBd_rx (s : State) : (s.releaseAllBd).rx = s.rx := rfl
@[simp] theorem State.releaseAllBd_tx (s : State) : (s.releaseAllBd).tx = s.tx := rfl
@[simp] theorem State.releaseAllBd_bd (s : State) : (s.releaseAllBd).bd = s.bd.map fun b => { b with own := false } := rfl
@[simp] theorem State.releaseAllBd_mem (s : State) : (s.releaseAllBd).mem = s.mem := rfl
@[simp] theorem State.releaseAllBd_out (s : State) : (s.releaseAllBd).out = s.out := rfl
@[simp] theorem State.releaseAllBd_bad (s : State) : (s.releaseAllBd).bad = s.bad := rfl
@[simp] theorem State.releaseAllBd_params (s : State) : (s.releaseAllBd).params = s.params := rfl
@[simp] theorem State.releaseAllBd_inputs (s : State) : (s.releaseAllBd).inputs = s.inputs := rfl
@[simp] theorem State.releaseAllBd_ret (s : State) : (s.releaseAllBd).ret = s.ret := rfl
@[simp] theorem State.releaseAllBd_fresh (s : State) : (s.releaseAllBd).fresh = s.fresh := rfl

/-! ### `setDevState` -/

@[simp] theorem State.setDevState_devState (s : State) (d : DevState) : (s.setDevState d).devState = d := rfl
@[simp] theorem State.setDevState_pendingAddress (s : State) (d : DevState) : (s.setDevState d).pendingAddress = s.pendingAddress := rfl
@[simp] theorem State.setDevState_devConfig (s : State) (d : DevState) : (s.setDevState d).devConfig = s.devConfig := rfl
@[simp] theorem State.setDevState_stage (s : State) (d : DevState) : (s.setDevState d).stage = s.stage := rfl
@[simp] theorem State.setDevState_req (s : State) (d : DevState) : (s.setDevState d).req = s.req := rfl
@[simp] theorem State.setDevState_hwAddr (s : State) (d : DevState) : (s.setDevState d).hwAddr = s.hwAddr := rfl
@[simp] theorem State.setDevState_ep0Stall (s : State) (d : DevState) : (s.setDevState d).ep0Stall = s.ep0Stall := rfl
@[simp] theorem State.setDevState_rx (s : State) (d : DevState) : (s.setDevState d).rx = s.rx := rfl
@[simp] theorem State.setDevState_tx (s : State) (d : DevState) : (s.setDevState d).tx = s.tx := rfl
@[simp] theorem State.setDevState_bd (s : State) (d : DevState) : (s.setDevState d).bd = s.bd := rfl
@[simp] theorem State.setDevState_mem (s : State) (d : DevState) : (s.setDevState d).mem = s.mem := rfl
@[simp] theorem State.setDevState_out (s : State) (d : DevState) : (s.setDevState d).out = s.out := rfl
@[simp] theorem State.setDevState_bad (s : State) (d : DevState) : (s.setDevState d).bad = s.bad := rfl
@[simp] theorem State.setDevState_params (s : State) (d : DevState) : (s.setDevState d).params = s.params := rfl
@[simp] theorem State.setDevState_inputs (s : State) (d : DevState) : (s.setDevState d).inputs = s.inputs := rfl
@[simp] theorem State.setDevState_ret (s : State) (d : DevState) : (s.setDevState d).ret = s.ret := rfl
@[simp] theorem State.setDevState_fresh (s : State) (d : DevState) : (s.setDevState d).fresh = s.fresh := rfl

/-! ### `setPendingAddress` -/

@[simp] theorem State.setPendingAddress_devState (s : State) (a : BitVec 7) : (s.setPendingAddress a).devState = s.devState := rfl
@[simp] theorem State.setPendingAddress_pendingAddress (s : State) (a : BitVec 7) : (s.setPendingAddress a).pendingAddress = a := rfl
@[simp] theorem State.setPendingAddress_devConfig (s : State) (a : BitVec 7) : (s.setPendingAddress a).devConfig = s.devConfig := rfl
@[simp] theorem State.setPendingAddress_stage (s : State) (a : BitVec 7) : (s.setPendingAddress a).stage = s.stage := rfl
@[simp] theorem State.setPendingAddress_req (s : State) (a : BitVec 7) : (s.setPendingAddress a).req = s.req := rfl
@[simp] theorem State.setPendingAddress_hwAddr (s : State) (a : BitVec 7) : (s.setPendingAddress a).hwAddr = s.hwAddr := rfl
@[simp] theorem State.setPendingAddress_ep0Stall (s : State) (a : BitVec 7) : (s.setPendingAddress a).ep0Stall = s.ep0Stall := rfl
@[simp] theorem State.setPendingAddress_rx (s : State) (a : BitVec 7) : (s.setPendingAddress a).rx = s.rx := rfl
@[simp] theorem State.setPendingAddress_tx (s : State) (a : BitVec 7) : (s.setPendingAddress a).tx = s.tx := rfl
@[simp] theorem State.setPendingAddress_bd (s : State) (a : BitVec 7) : (s.setPendingAddress a).bd = s.bd := rfl
@[simp] theorem State.setPendingAddress_mem (s : State) (a : BitVec 7) : (s.setPendingAddress a).mem = s.mem := rfl
@[simp] theorem State.setPendingAddress_out (s : State) (a : BitVec 7) : (s.setPendingAddress a).out = s.out := rfl
@[simp] theorem State.setPendingAddress_bad (s : State) (a : BitVec 7) : (s.setPendingAddress a).bad = s.bad := rfl
@[simp] theorem State.setPendingAddress_params (s : State) (a : BitVec 7) : (s.setPendingAddress a).params = s.params := rfl
@[simp] theorem State.setPendingAddress_inputs (s : State) (a : BitVec 7) : (s.setPendingAddress a).inputs = s.inputs := rfl
@[simp] theorem State.setPendingAddress_ret (s : State) (a : BitVec 7) : (s.setPendingAddress a).ret = s.ret := rfl
@[simp] theorem State.setPendingAddress_fresh (s : State) (a : BitVec 7) : (s.setPendingAddress a).fresh = s.fresh := rfl

/-! ### `setDevConfig` -/

@[simp] theorem State.setDevConfig_devState (s : State) (c : BitVec 8) : (s.setDevConfig c).devState = s.devState := rfl
@[simp] theorem State.setDevConfig_pendingAddress (s : State) (c : BitVec 8) : (s.setDevConfig c).pendingAddress = s.pendingAddress := rfl
@[simp] theorem State.setDevConfig_devConfig (s : State) (c : BitVec 8) : (s.setDevConfig c).devConfig = c := rfl
@[simp] theorem State.setDevConfig_stage (s : State) (c : BitVec 8) : (s.setDevConfig c).stage = s.stage := rfl
@[simp] theorem State.setDevConfig_req (s : State) (c : BitVec 8) : (s.setDevConfig c).req = s.req := rfl
@[simp] theorem State.setDevConfig_hwAddr (s : State) (c : BitVec 8) : (s.setDevConfig c).hwAddr = s.hwAddr := rfl
@[simp] theorem State.setDevConfig_ep0Stall (s : State) (c : BitVec 8) : (s.setDevConfig c).ep0Stall = s.ep0Stall := rfl
@[simp] theorem State.setDevConfig_rx (s : State) (c : BitVec 8) : (s.setDevConfig c).rx = s.rx := rfl
@[simp] theorem State.setDevConfig_tx (s : State) (c : BitVec 8) : (s.setDevConfig c).tx = s.tx := rfl
@[simp] theorem State.setDevConfig_bd (s : State) (c : BitVec 8) : (s.setDevConfig c).bd = s.bd := rfl
@[simp] theorem State.setDevConfig_mem (s : State) (c : BitVec 8) : (s.setDevConfig c).mem = s.mem := rfl
@[simp] theorem State.setDevConfig_out (s : State) (c : BitVec 8) : (s.setDevConfig c).out = s.out := rfl
@[simp] theorem State.setDevConfig_bad (s : State) (c : BitVec 8) : (s.setDevConfig c).bad = s.bad := rfl
@[simp] theorem State.setDevConfig_params (s : State) (c : BitVec 8) : (s.setDevConfig c).params = s.params := rfl
@[simp] theorem State.setDevConfig_inputs (s : State) (c : BitVec 8) : (s.setDevConfig c).inputs = s.inputs := rfl
@[simp] theorem State.setDevConfig_ret (s : State) (c : BitVec 8) : (s.setDevConfig c).ret = s.ret := rfl
@[simp] theorem State.setDevConfig_fresh (s : State) (c : BitVec 8) : (s.setDevConfig c).fresh = s.fresh := rfl

/-! ### `setStage` -/

@[simp] theorem State.setStage_devState (s : State) (g : Stage) : (s.setStage g).devState = s.devState := rfl
@[simp] theorem State.setStage_pendingAddress (s : State) (g : Stage) : (s.setStage g).pendingAddress = s.pendingAddress := rfl
@[simp] theorem State.setStage_devConfig (s : State) (g : Stage) : (s.setStage g).devConfig = s.devConfig := rfl
@[simp] theorem State.setStage_stage (s : State) (g : Stage) : (s.setStage g).stage = g := rfl
@[simp] theorem State.setStage_req (s : State) (g : Stage) : (s.setStage g).req = s.req := rfl
@[simp] theorem State.setStage_hwAddr (s : State) (g : Stage) : (s.setStage g).hwAddr = s.hwAddr := rfl
@[simp] theorem State.setStage_ep0Stall (s : State) (g : Stage) : (s.setStage g).ep0Stall = s.ep0Stall := rfl
@[simp] theorem State.setStage_rx (s : State) (g : Stage) : (s.setStage g).rx = s.rx := rfl
@[simp] theorem State.setStage_tx (s : State) (g : Stage) : (s.setStage g).tx = s.tx := rfl
@[simp] theorem State.setStage_bd (s : State) (g : Stage) : (s.setStage g).bd = s.bd := rfl
@[simp] theorem State.setStage_mem (s : State) (g : Stage) : (s.setStage g).mem = s.mem := rfl
@[simp] theorem State.setStage_out (s : State) (g : Stage) : (s.setStage g).out = s.out := rfl
@[simp] theorem State.setStage_bad (s : State) (g : Stage) : (s.setStage g).bad = s.bad := rfl
@[simp] theorem State.setStage_params (s : State) (g : Stage) : (s.setStage g).params = s.params := rfl
@[simp] theorem State.setStage_inputs (s : State) (g : Stage) : (s.setStage g).inputs = s.inputs := rfl
@[simp] theorem State.setStage_ret (s : State) (g : Stage) : (s.setStage g).ret = s.ret := rfl
@[simp] theorem State.setStage_fresh (s : State) (g : Stage) : (s.setStage g).fresh = s.fresh := rfl

/-! ### `setReq` -/

@[simp] theorem State.setReq_devState (s : State) (r : Option ControlReq) : (s.setReq r).devState = s.devState := rfl
@[simp] theorem State.setReq_pendingAddress (s : State) (r : Option ControlReq) : (s.setReq r).pendingAddress = s.pendingAddress := rfl
@[simp] theorem State.setReq_devConfig (s : State) (r : Option ControlReq) : (s.setReq r).devConfig = s.devConfig := rfl
@[simp] theorem State.setReq_stage (s : State) (r : Option ControlReq) : (s.setReq r).stage = s.stage := rfl
@[simp] theorem State.setReq_req (s : State) (r : Option ControlReq) : (s.setReq r).req = r := rfl
@[simp] theorem State.setReq_hwAddr (s : State) (r : Option ControlReq) : (s.setReq r).hwAddr = s.hwAddr := rfl
@[simp] theorem State.setReq_ep0Stall (s : State) (r : Option ControlReq) : (s.setReq r).ep0Stall = s.ep0Stall := rfl
@[simp] theorem State.setReq_rx (s : State) (r : Option ControlReq) : (s.setReq r).rx = s.rx := rfl
@[simp] theorem State.setReq_tx (s : State) (r : Option ControlReq) : (s.setReq r).tx = s.tx := rfl
@[simp] theorem State.setReq_bd (s : State) (r : Option ControlReq) : (s.setReq r).bd = s.bd := rfl
@[simp] theorem State.setReq_mem (s : State) (r : Option ControlReq) : (s.setReq r).mem = s.mem := rfl
@[simp] theorem State.setReq_out (s : State) (r : Option ControlReq) : (s.setReq r).out = s.out := rfl
@[simp] theorem State.setReq_bad (s : State) (r : Option ControlReq) : (s.setReq r).bad = s.bad := rfl
@[simp] theorem State.setReq_params (s : State) (r : Option ControlReq) : (s.setReq r).params = s.params := rfl
@[simp] theorem State.setReq_inputs (s : State) (r : Option ControlReq) : (s.setReq r).inputs = s.inputs := rfl
@[simp] theorem State.setReq_ret (s : State) (r : Option ControlReq) : (s.setReq r).ret = s.ret := rfl
@[simp] theorem State.setReq_fresh (s : State) (r : Option ControlReq) : (s.setReq r).fresh = s.fresh := rfl

/-! ### `setHwAddr` -/

@[simp] theorem State.setHwAddr_devState (s : State) (a : BitVec 7) : (s.setHwAddr a).devState = s.devState := rfl
@[simp] theorem State.setHwAddr_pendingAddress (s : State) (a : BitVec 7) : (s.setHwAddr a).pendingAddress = s.pendingAddress := rfl
@[simp] theorem State.setHwAddr_devConfig (s : State) (a : BitVec 7) : (s.setHwAddr a).devConfig = s.devConfig := rfl
@[simp] theorem State.setHwAddr_stage (s : State) (a : BitVec 7) : (s.setHwAddr a).stage = s.stage := rfl
@[simp] theorem State.setHwAddr_req (s : State) (a : BitVec 7) : (s.setHwAddr a).req = s.req := rfl
@[simp] theorem State.setHwAddr_hwAddr (s : State) (a : BitVec 7) : (s.setHwAddr a).hwAddr = a := rfl
@[simp] theorem State.setHwAddr_ep0Stall (s : State) (a : BitVec 7) : (s.setHwAddr a).ep0Stall = s.ep0Stall := rfl
@[simp] theorem State.setHwAddr_rx (s : State) (a : BitVec 7) : (s.setHwAddr a).rx = s.rx := rfl
@[simp] theorem State.setHwAddr_tx (s : State) (a : BitVec 7) : (s.setHwAddr a).tx = s.tx := rfl
@[simp] theorem State.setHwAddr_bd (s : State) (a : BitVec 7) : (s.setHwAddr a).bd = s.bd := rfl
@[simp] theorem State.setHwAddr_mem (s : State) (a : BitVec 7) : (s.setHwAddr a).mem = s.mem := rfl
@[simp] theorem State.setHwAddr_out (s : State) (a : BitVec 7) : (s.setHwAddr a).out = s.out := rfl
@[simp] theorem State.setHwAddr_bad (s : State) (a : BitVec 7) : (s.setHwAddr a).bad = s.bad := rfl
@[simp] theorem State.setHwAddr_params (s : State) (a : BitVec 7) : (s.setHwAddr a).params = s.params := rfl
@[simp] theorem State.setHwAddr_inputs (s : State) (a : BitVec 7) : (s.setHwAddr a).inputs = s.inputs := rfl
@[simp] theorem State.setHwAddr_ret (s : State) (a : BitVec 7) : (s.setHwAddr a).ret = s.ret := rfl
@[simp] theorem State.setHwAddr_fresh (s : State) (a : BitVec 7) : (s.setHwAddr a).fresh = s.fresh := rfl

/-! ### `setEp0Stall` -/

@[simp] theorem State.setEp0Stall_devState (s : State) (b : Bool) : (s.setEp0Stall b).devState = s.devState := rfl
@[simp] theorem State.setEp0Stall_pendingAddress (s : State) (b : Bool) : (s.setEp0Stall b).pendingAddress = s.pendingAddress := rfl
@[simp] theorem State.setEp0Stall_devConfig (s : State) (b : Bool) : (s.setEp0Stall b).devConfig = s.devConfig := rfl
@[simp] theorem State.setEp0Stall_stage (s : State) (b : Bool) : (s.setEp0Stall b).stage = s.stage := rfl
@[simp] theorem State.setEp0Stall_req (s : State) (b : Bool) : (s.setEp0Stall b).req = s.req := rfl
@[simp] theorem State.setEp0Stall_hwAddr (s : State) (b : Bool) : (s.setEp0Stall b).hwAddr = s.hwAddr := rfl
@[simp] theorem State.setEp0Stall_ep0Stall (s : State) (b : Bool) : (s.setEp0Stall b).ep0Stall = b := rfl
@[simp] theorem State.setEp0Stall_rx (s : State) (b : Bool) : (s.setEp0Stall b).rx = s.rx := rfl
@[simp] theorem State.setEp0Stall_tx (s : State) (b : Bool) : (s.setEp0Stall b).tx = s.tx := rfl
@[simp] theorem State.setEp0Stall_bd (s : State) (b : Bool) : (s.setEp0Stall b).bd = s.bd := rfl
@[simp] theorem State.setEp0Stall_mem (s : State) (b : Bool) : (s.setEp0Stall b).mem = s.mem := rfl
@[simp] theorem State.setEp0Stall_out (s : State) (b : Bool) : (s.setEp0Stall b).out = s.out := rfl
@[simp] theorem State.setEp0Stall_bad (s : State) (b : Bool) : (s.setEp0Stall b).bad = s.bad := rfl
@[simp] theorem State.setEp0Stall_params (s : State) (b : Bool) : (s.setEp0Stall b).params = s.params := rfl
@[simp] theorem State.setEp0Stall_inputs (s : State) (b : Bool) : (s.setEp0Stall b).inputs = s.inputs := rfl
@[simp] theorem State.setEp0Stall_ret (s : State) (b : Bool) : (s.setEp0Stall b).ret = s.ret := rfl
@[simp] theorem State.setEp0Stall_fresh (s : State) (b : Bool) : (s.setEp0Stall b).fresh = s.fresh := rfl

/-! ### `emit` -/

@[simp] theorem State.emit_devState (s : State) (e : TraceRec) : (s.emit e).devState = s.devState := rfl
@[simp] theorem State.emit_pendingAddress (s : State) (e : TraceRec) : (s.emit e).pendingAddress = s.pendingAddress := rfl
@[simp] theorem State.emit_devConfig (s : State) (e : TraceRec) : (s.emit e).devConfig = s.devConfig := rfl
@[simp] theorem State.emit_stage (s : State) (e : TraceRec) : (s.emit e).stage = s.stage := rfl
@[simp] theorem State.emit_req (s : State) (e : TraceRec) : (s.emit e).req = s.req := rfl
@[simp] theorem State.emit_hwAddr (s : State) (e : TraceRec) : (s.emit e).hwAddr = s.hwAddr := rfl
@[simp] theorem State.emit_ep0Stall (s : State) (e : TraceRec) : (s.emit e).ep0Stall = s.ep0Stall := rfl
@[simp] theorem State.emit_rx (s : State) (e : TraceRec) : (s.emit e).rx = s.rx := rfl
@[simp] theorem State.emit_tx (s : State) (e : TraceRec) : (s.emit e).tx = s.tx := rfl
@[simp] theorem State.emit_bd (s : State) (e : TraceRec) : (s.emit e).bd = s.bd := rfl
@[simp] theorem State.emit_mem (s : State) (e : TraceRec) : (s.emit e).mem = s.mem := rfl
@[simp] theorem State.emit_out (s : State) (e : TraceRec) : (s.emit e).out = s.out ++ [e] := rfl
@[simp] theorem State.emit_bad (s : State) (e : TraceRec) : (s.emit e).bad = s.bad := rfl
@[simp] theorem State.emit_params (s : State) (e : TraceRec) : (s.emit e).params = s.params := rfl
@[simp] theorem State.emit_inputs (s : State) (e : TraceRec) : (s.emit e).inputs = s.inputs := rfl
@[simp] theorem State.emit_ret (s : State) (e : TraceRec) : (s.emit e).ret = s.ret := rfl
@[simp] theorem State.emit_fresh (s : State) (e : TraceRec) : (s.emit e).fresh = s.fresh := rfl

/-! ### `setInputs` -/

@[simp] theorem State.setInputs_devState (s : State) (l : List Input) : (s.setInputs l).devState = s.devState := rfl
@[simp] theorem State.setInputs_pendingAddress (s : State) (l : List Input) : (s.setInputs l).pendingAddress = s.pendingAddress := rfl
@[simp] theorem State.setInputs_devConfig (s : State) (l : List Input) : (s.setInputs l).devConfig = s.devConfig := rfl
@[simp] theorem State.setInputs_stage (s : State) (l : List Input) : (s.setInputs l).stage = s.stage := rfl
@[simp] theorem State.setInputs_req (s : State) (l : List Input) : (s.setInputs l).req = s.req := rfl
@[simp] theorem State.setInputs_hwAddr (s : State) (l : List Input) : (s.setInputs l).hwAddr = s.hwAddr := rfl
@[simp] theorem State.setInputs_ep0Stall (s : State) (l : List Input) : (s.setInputs l).ep0Stall = s.ep0Stall := rfl
@[simp] theorem State.setInputs_rx (s : State) (l : List Input) : (s.setInputs l).rx = s.rx := rfl
@[simp] theorem State.setInputs_tx (s : State) (l : List Input) : (s.setInputs l).tx = s.tx := rfl
@[simp] theorem State.setInputs_bd (s : State) (l : List Input) : (s.setInputs l).bd = s.bd := rfl
@[simp] theorem State.setInputs_mem (s : State) (l : List Input) : (s.setInputs l).mem = s.mem := rfl
@[simp] theorem State.setInputs_out (s : State) (l : List Input) : (s.setInputs l).out = s.out := rfl
@[simp] theorem State.setInputs_bad (s : State) (l : List Input) : (s.setInputs l).bad = s.bad := rfl
@[simp] theorem State.setInputs_params (s : State) (l : List Input) : (s.setInputs l).params = s.params := rfl
@[simp] theorem State.setInputs_inputs (s : State) (l : List Input) : (s.setInputs l).inputs = l := rfl
@[simp] theorem State.setInputs_ret (s : State) (l : List Input) : (s.setInputs l).ret = s.ret := rfl
@[simp] theorem State.setInputs_fresh (s : State) (l : List Input) : (s.setInputs l).fresh = s.fresh := rfl

/-! ### `setRet` -/

@[simp] theorem State.setRet_devState (s : State) (r : Ret) : (s.setRet r).devState = s.devState := rfl
@[simp] theorem State.setRet_pendingAddress (s : State) (r : Ret) : (s.setRet r).pendingAddress = s.pendingAddress := rfl
@[simp] theorem State.setRet_devConfig (s : State) (r : Ret) : (s.setRet r).devConfig = s.devConfig := rfl
@[simp] theorem State.setRet_stage (s : State) (r : Ret) : (s.setRet r).stage = s.stage := rfl
@[simp] theorem State.setRet_req (s : State) (r : Ret) : (s.setRet r).req = s.req := rfl
@[simp] theorem State.setRet_hwAddr (s : State) (r : Ret) : (s.setRet r).hwAddr = s.hwAddr := rfl
@[simp] theorem State.setRet_ep0Stall (s : State) (r : Ret) : (s.setRet r).ep0Stall = s.ep0Stall := rfl
@[simp] theorem State.setRet_rx (s : State) (r : Ret) : (s.setRet r).rx = s.rx := rfl
@[simp] theorem State.setRet_tx (s : State) (r : Ret) : (s.setRet r).tx = s.tx := rfl
@[simp] theorem State.setRet_bd (s : State) (r : Ret) : (s.setRet r).bd = s.bd := rfl
@[simp] theorem State.setRet_mem (s : State) (r : Ret) : (s.setRet r).mem = s.mem := rfl
@[simp] theorem State.setRet_out (s : State) (r : Ret) : (s.setRet r).out = s.out := rfl
@[simp] theorem State.setRet_bad (s : State) (r : Ret) : (s.setRet r).bad = s.bad := rfl
@[simp] theorem State.setRet_params (s : State) (r : Ret) : (s.setRet r).params = s.params := rfl
@[simp] theorem State.setRet_inputs (s : State) (r : Ret) : (s.setRet r).inputs = s.inputs := rfl
@[simp] theorem State.setRet_ret (s : State) (r : Ret) : (s.setRet r).ret = r := rfl
@[simp] theorem State.setRet_fresh (s : State) (r : Ret) : (s.setRet r).fresh = s.fresh := rfl

/-! ### `takeFresh` -/

@[simp] theorem State.takeFresh_devState (s : State) (n : Nat) : (s.takeFresh n).devState = s.devState := rfl
@[simp] theorem State.takeFresh_pendingAddress (s : State) (n : Nat) : (s.takeFresh n).pendingAddress = s.pendingAddress := rfl
@[simp] theorem State.takeFresh_devConfig (s : State) (n : Nat) : (s.takeFresh n).devConfig = s.devConfig := rfl
@[simp] theorem State.takeFresh_stage (s : State) (n : Nat) : (s.takeFresh n).stage = s.stage := rfl
@[simp] theorem State.takeFresh_req (s : State) (n : Nat) : (s.takeFresh n).req = s.req := rfl
@[simp] theorem State.takeFresh_hwAddr (s : State) (n : Nat) : (s.takeFresh n).hwAddr = s.hwAddr := rfl
@[simp] theorem State.takeFresh_ep0Stall (s : State) (n : Nat) : (s.takeFresh n).ep0Stall = s.ep0Stall := rfl
@[simp] theorem State.takeFresh_rx (s : State) (n : Nat) : (s.takeFresh n).rx = s.rx := rfl
@[simp] theorem State.takeFresh_tx (s : State) (n : Nat) : (s.takeFresh n).tx = s.tx := rfl
@[simp] theorem State.takeFresh_bd (s : State) (n : Nat) : (s.takeFresh n).bd = s.bd := rfl
@[simp] theorem State.takeFresh_mem (s : State) (n : Nat) : (s.takeFresh n).mem = s.mem := rfl
@[simp] theorem State.takeFresh_out (s : State) (n : Nat) : (s.takeFresh n).out = s.out := rfl
@[simp] theorem State.takeFresh_bad (s : State) (n : Nat) : (s.takeFresh n).bad = s.bad := rfl
@[simp] theorem State.takeFresh_params (s : State) (n : Nat) : (s.takeFresh n).params = s.params := rfl
@[simp] theorem State.takeFresh_inputs (s : State) (n : Nat) : (s.takeFresh n).inputs = s.inputs := rfl
@[simp] theorem State.takeFresh_ret (s : State) (n : Nat) : (s.takeFresh n).ret = s.ret := rfl
@[simp] theorem State.takeFresh_fresh (s : State) (n : Nat) : (s.takeFresh n).fresh = s.fresh + n := rfl

/-! ### `mark` -/

@[simp] theorem State.mark_devState (s : State) (m : BadMark) : (s.mark m).devState = s.devState := rfl
@[simp] theorem State.mark_pendingAddress (s : State) (m : BadMark) : (s.mark m).pendingAddress = s.pendingAddress := rfl
@[simp] theorem State.mark_devConfig (s : State) (m : BadMark) : (s.mark m).devConfig = s.devConfig := rfl
@[simp] theorem State.mark_stage (s : State) (m : BadMark) : (s.mark m).stage = s.stage := rfl
@[simp] theorem State.mark_req (s : State) (m : BadMark) : (s.mark m).req = s.req := rfl
@[simp] theorem State.mark_hwAddr (s : State) (m : BadMark) : (s.mark m).hwAddr = s.hwAddr := rfl
@[simp] theorem State.mark_ep0Stall (s : State) (m : BadMark) : (s.mark m).ep0Stall = s.ep0Stall := rfl
@[simp] theorem State.mark_rx (s : State) (m : BadMark) : (s.mark m).rx = s.rx := rfl
@[simp] theorem State.mark_tx (s : State) (m : BadMark) : (s.mark m).tx = s.tx := rfl
@[simp] theorem State.mark_bd (s : State) (m : BadMark) : (s.mark m).bd = s.bd := rfl
@[simp] theorem State.mark_mem (s : State) (m : BadMark) : (s.mark m).mem = s.mem := rfl
@[simp] theorem State.mark_out (s : State) (m : BadMark) : (s.mark m).out = s.out := rfl
@[simp] theorem State.mark_params (s : State) (m : BadMark) : (s.mark m).params = s.params := rfl
@[simp] theorem State.mark_inputs (s : State) (m : BadMark) : (s.mark m).inputs = s.inputs := rfl
@[simp] theorem State.mark_ret (s : State) (m : BadMark) : (s.mark m).ret = s.ret := rfl
@[simp] theorem State.mark_fresh (s : State) (m : BadMark) : (s.mark m).fresh = s.fresh := rfl

/-! ### `setPipe` -/

@[simp] theorem State.setPipe_devState (s : State) (d : Dir) (p : Pipe) : (s.setPipe d p).devState = s.devState := by cases d <;> rfl
@[simp] theorem State.setPipe_pendingAddress (s : State) (d : Dir) (p : Pipe) : (s.setPipe d p).pendingAddress = s.pendingAddress := by cases d <;> rfl
@[simp] theorem State.setPipe_devConfig (s : State) (d : Dir) (p : Pipe) : (s.setPipe d p).devConfig = s.devConfig := by cases d <;> rfl
@[simp] theorem State.setPipe_stage (s : State) (d : Dir) (p : Pipe) : (s.setPipe d p).stage = s.stage := by cases d <;> rfl
@[simp] theorem State.setPipe_req (s : State) (d : Dir) (p : Pipe) : (s.setPipe d p).req = s.req := by cases d <;> rfl
@[simp] theorem State.setPipe_hwAddr (s : State) (d : Dir) (p : Pipe) : (s.setPipe d p).hwAddr = s.hwAddr := by cases d <;> rfl
@[simp] theorem State.setPipe_ep0Stall (s : State) (d : Dir) (p : Pipe) : (s.setPipe d p).ep0Stall = s.ep0Stall := by cases d <;> rfl
@[simp] theorem State.setPipe_rx_same (s : State) (p : Pipe) : (s.setPipe .rx p).rx = p := rfl
@[simp] theorem State.setPipe_rx_other (s : State) (p : Pipe) : (s.setPipe .tx p).rx = s.rx := rfl
@[simp] theorem State.setPipe_tx_same (s : State) (p : Pipe) : (s.setPipe .tx p).tx = p := rfl
@[simp] theorem State.setPipe_tx_other (s : State) (p : Pipe) : (s.setPipe .rx p).tx = s.tx := rfl
@[simp] theorem State.setPipe_bd (s : State) (d : Dir) (p : Pipe) : (s.setPipe d p).bd = s.bd := by cases d <;> rfl
@[simp] theorem State.setPipe_mem (s : State) (d : Dir) (p : Pipe) : (s.setPipe d p).mem = s.mem := by cases d <;> rfl
@[simp] theorem State.setPipe_out (s : State) (d : Dir) (p : Pipe) : (s.setPipe d p).out = s.out := by cases d <;> rfl
@[simp] theorem State.setPipe_bad (s : State) (d : Dir) (p : Pipe) : (s.setPipe d p).bad = s.bad := by cases d <;> rfl
@[simp] theorem State.setPipe_params (s : State) (d : Dir) (p : Pipe) : (s.setPipe d p).params = s.params := by cases d <;> rfl
@[simp] theorem State.setPipe_inputs (s : State) (d : Dir) (p : Pipe) : (s.setPipe d p).inputs = s.inputs := by cases d <;> rfl
@[simp] theorem State.setPipe_ret (s : State) (d : Dir) (p : Pipe) : (s.setPipe d p).ret = s.ret := by cases d <;> rfl
@[simp] theorem State.setPipe_fresh (s : State) (d : Dir) (p : Pipe) : (s.setPipe d p).fresh = s.fresh := by cases d <;> rfl

/-! ### The accessors `pipe`, `bdAt`, `scratch` -/

@[simp] theorem State.pipe_rx (s : State) : s.pipe .rx = s.rx := rfl
@[simp] theorem State.pipe_tx (s : State) : s.pipe .tx = s.tx := rfl
@[simp] theorem State.setPipe_pipe (s : State) (d : Dir) (p : Pipe) : (s.setPipe d p).pipe d = p := by cases d <;> rfl
theorem State.setPipe_pipe_ne (s : State) (d e : Dir) (p : Pipe) (h : d ≠ e) : (s.setPipe d p).pipe e = s.pipe e := by
  cases d <;> cases e <;> first | rfl | exact absurd rfl h
@[simp] theorem State.setBd_bdAt (s : State) (i : Fin 64) (b : Bd) : (s.setBd i b).bdAt i = b := by
  simp [State.bdAt, State.setBd]
theorem State.setBd_bdAt_ne (s : State) (i j : Fin 64) (b : Bd) (h : i ≠ j) : (s.setBd i b).bdAt j = s.bdAt j := by
  have : i.val ≠ j.val := fun e => h (Fin.ext e)
  simp [State.bdAt, State.setBd, this]
@[simp] theorem State.releaseAllBd_bdAt (s : State) (i : Fin 64) :
    (s.releaseAllBd).bdAt i = { s.bdAt i with own := false } := by
  simp [State.bdAt, State.releaseAllBd]

/-- A state whose directory is the same has the same descriptors. -/
theorem State.bdAt_congr (s t : State) (h : s.bd = t.bd) (i : Fin 64) : s.bdAt i = t.bdAt i := by
  simp [State.bdAt, h]
@[simp] theorem State.setMem_bdAt (s : State) (m : Memory) (i : Fin 64) : (s.setMem m).bdAt i = s.bdAt i := rfl
@[simp] theorem State.setDevState_bdAt (s : State) (d : DevState) (i : Fin 64) : (s.setDevState d).bdAt i = s.bdAt i := rfl
@[simp] theorem State.setPendingAddress_bdAt (s : State) (a : BitVec 7) (i : Fin 64) : (s.setPendingAddress a).bdAt i = s.bdAt i := rfl
@[simp] theorem State.setDevConfig_bdAt (s : State) (c : BitVec 8) (i : Fin 64) : (s.setDevConfig c).bdAt i = s.bdAt i := rfl
@[simp] theorem State.setStage_bdAt (s : State) (g : Stage) (i : Fin 64) : (s.setStage g).bdAt i = s.bdAt i := rfl
@[simp] theorem State.setReq_bdAt (s : State) (r : Option ControlReq) (i : Fin 64) : (s.setReq r).bdAt i = s.bdAt i := rfl
@[simp] theorem State.setHwAddr_bdAt (s : State) (a : BitVec 7) (i : Fin 64) : (s.setHwAddr a).bdAt i = s.bdAt i := rfl
@[simp] theorem State.setEp0Stall_bdAt (s : State) (b : Bool) (i : Fin 64) : (s.setEp0Stall b).bdAt i = s.bdAt i := rfl
@[simp] theorem State.emit_bdAt (s : State) (e : TraceRec) (i : Fin 64) : (s.emit e).bdAt i = s.bdAt i := rfl
@[simp] theorem State.setInputs_bdAt (s : State) (l : List Input) (i : Fin 64) : (s.setInputs l).bdAt i = s.bdAt i := rfl
@[simp] theorem State.setRet_bdAt (s : State) (r : Ret) (i : Fin 64) : (s.setRet r).bdAt i = s.bdAt i := rfl
@[simp] theorem State.takeFresh_bdAt (s : State) (n : Nat) (i : Fin 64) : (s.takeFresh n).bdAt i = s.bdAt i := rfl
@[simp] theorem State.mark_bdAt (s : State) (m : BadMark) (i : Fin 64) : (s.mark m).bdAt i = s.bdAt i := rfl
@[simp] theorem State.setPipe_bdAt (s : State) (d : Dir) (p : Pipe) (i : Fin 64) : (s.setPipe d p).bdAt i = s.bdAt i := by cases d <;> rfl
@[simp] theorem State.setMem_scratch (s : State) (m : Memory) (x : Slot) : (s.setMem m).scratch x = s.scratch x := by cases x <;> rfl
@[simp] theorem State.setBd_scratch (s : State) (i : Fin 64) (b : Bd) (x : Slot) : (s.setBd i b).scratch x = s.scratch x := by cases x <;> rfl
@[simp] theorem State.releaseAllBd_scratch (s : State) (x : Slot) : (s.releaseAllBd).scratch x = s.scratch x := by cases x <;> rfl
@[simp] theorem State.setDevState_scratch (s : State) (d : DevState) (x : Slot) : (s.setDevState d).scratch x = s.scratch x := by cases x <;> rfl
@[simp] theorem State.setPendingAddress_scratch (s : State) (a : BitVec 7) (x : Slot) : (s.setPendingAddress a).scratch x = s.scratch x := by cases x <;> rfl
@[simp] theorem State.setDevConfig_scratch (s : State) (c : BitVec 8) (x : Slot) : (s.setDevConfig c).scratch x = s.scratch x := by cases x <;> rfl
@[simp] theorem State.setStage_scratch (s : State) (g : Stage) (x : Slot) : (s.setStage g).scratch x = s.scratch x := by cases x <;> rfl
@[simp] theorem State.setReq_scratch (s : State) (r : Option ControlReq) (x : Slot) : (s.setReq r).scratch x = s.scratch x := by cases x <;> rfl
@[simp] theorem State.setHwAddr_scratch (s : State) (a : BitVec 7) (x : Slot) : (s.setHwAddr a).scratch x = s.scratch x := by cases x <;> rfl
@[simp] theorem State.setEp0Stall_scratch (s : State) (b : Bool) (x : Slot) : (s.setEp0Stall b).scratch x = s.scratch x := by cases x <;> rfl
@[simp] theorem State.emit_scratch (s : State) (e : TraceRec) (x : Slot) : (s.emit e).scratch x = s.scratch x := by cases x <;> rfl
@[simp] theorem State.setInputs_scratch (s : State) (l : List Input) (x : Slot) : (s.setInputs l).scratch x = s.scratch x := by cases x <;> rfl
@[simp] theorem State.setRet_scratch (s : State) (r : Ret) (x : Slot) : (s.setRet r).scratch x = s.scratch x := by cases x <;> rfl
@[simp] theorem State.takeFresh_scratch (s : State) (n : Nat) (x : Slot) : (s.takeFresh n).scratch x = s.scratch x := by cases x <;> rfl
@[simp] theorem State.mark_scratch (s : State) (m : BadMark) (x : Slot) : (s.mark m).scratch x = s.scratch x := by cases x <;> rfl
@[simp] theorem State.setPipe_scratch (s : State) (d : Dir) (p : Pipe) (x : Slot) : (s.setPipe d p).scratch x = s.scratch x := by cases d <;> cases x <;> rfl

/-! ### The mark -/

theorem State.mark_bad_of_none (s : State) (m : BadMark) (h : s.bad = none) : (s.mark m).bad = some m := by
  simp [State.mark, h]
theorem State.mark_bad_of_some (s : State) (m n : BadMark) (h : s.bad = some n) : (s.mark m).bad = some n := by
  simp [State.mark, h]

end Sys2Proof.Machine
end

