-- ==== Sys2Proof/Laws/Engine.lean ====
section
/-! SUPPORT. What each shared operation can do, said once: arming, the engines, the stages of a control transfer. -/

namespace Sys2Proof.Machine

open Sys2Proof

/-! ### Slots and ownership -/

@[simp] theorem flipSlot_flipSlot (x : Slot) : flipSlot (flipSlot x) = x := by cases x <;> rfl
@[simp] theorem flipToggle_flipToggle (t : Toggle) : flipToggle (flipToggle t) = t := by cases t <;> rfl
theorem flipSlot_ne (x : Slot) : flipSlot x ≠ x := by cases x <;> decide

theorem bd0_injective (d e : Dir) (x y : Slot) (h : bd0 d x = bd0 e y) : d = e ∧ x = y := by
  revert h
  cases d <;> cases e <;> cases x <;> cases y <;> decide

theorem bd0_lt (d : Dir) (x : Slot) : (bd0 d x).val < 4 := by cases d <;> cases x <;> decide

theorem dirOwned_eq_false_iff (d : Dir) (s : State) : dirOwned d s = false ↔ noneOwned d s := by
  simp [dirOwned, noneOwned]

theorem noneOwned_slot {d : Dir} {s : State} (h : noneOwned d s) (x : Slot) : (s.bdAt (bd0 d x)).own = false := by
  cases x
  · exact h.1
  · exact h.2

theorem noneOwned_congr {d : Dir} {s t : State} (hb : s.bd = t.bd) (h : noneOwned d s) : noneOwned d t := by
  simpa [noneOwned, State.bdAt, hb] using h

/-! ### `Arm` -/

/-- `Arm` answers the armed descriptor where it is not owned, and fault(R75) otherwise. -/
theorem arm_ok_iff (i : Fin 64) (a : Addr) (n : BitVec 10) (t : Toggle) (s u : State) :
    arm i a n t s = .ok u ↔ (s.bdAt i).own = false ∧
      u = s.setBd i { s.bdAt i with addr := a, bc := n, dts := true, data01 := t, stall := false, own := true } := by
  unfold arm
  by_cases h : (s.bdAt i).own = true
  · rw [if_pos h]
    constructor
    · intro e
      cases e
    · intro e
      rw [h] at e
      cases e.1
  · rw [if_neg h]
    constructor
    · intro e
      cases e
      exact ⟨by simpa using h, rfl⟩
    · intro e
      rw [e.2]

theorem arm_error_iff (i : Fin 64) (a : Addr) (n : BitVec 10) (t : Toggle) (s : State) (m : BadMark) :
    arm i a n t s = .error m ↔ (s.bdAt i).own = true ∧ m = .fault .r75 := by
  unfold arm
  by_cases h : (s.bdAt i).own = true
  · rw [if_pos h]
    constructor
    · intro e
      cases e
      exact ⟨h, rfl⟩
    · intro e
      rw [e.2]
  · rw [if_neg h]
    constructor
    · intro e
      cases e
    · intro e
      exact absurd e.1 h

/-- What arming a chunk answers: the armed descriptor of the pipe's slot, and the slot flipped. -/
theorem armChunk_ok_iff (d : Dir) (s u : State) :
    armChunk d s = .ok u ↔
      (s.pipe d).dataBuf.toNat + (s.pipe d).pos.toNat < memSize ∧ (s.bdAt (bd0 d (s.pipe d).pingpong)).own = false ∧
      u = (s.setBd (bd0 d (s.pipe d).pingpong)
            (armedBd (BitVec.ofNat 32 ((s.pipe d).dataBuf.toNat + (s.pipe d).pos.toNat)) (chunkLen (s.pipe d)) (s.pipe d).data01
              (s.bdAt (bd0 d (s.pipe d).pingpong)))).setPipe d { s.pipe d with pingpong := flipSlot (s.pipe d).pingpong } := by
  have hp : ∀ (i : Fin 64) (b : Bd), (s.setBd i b).pipe d = s.pipe d := fun _ _ => by cases d <;> rfl
  unfold armChunk
  by_cases h : memSize ≤ (s.pipe d).dataBuf.toNat + (s.pipe d).pos.toNat
  · simp only [if_pos h]
    constructor
    · intro e
      cases e
    · intro e
      exact absurd e.1 (by omega)
  · simp only [if_neg h]
    split
    · rename_i m hm
      obtain ⟨ho, -⟩ := (arm_error_iff _ _ _ _ _ _).1 hm
      constructor
      · intro e
        cases e
      · intro e
        rw [ho] at e
        cases e.2.1
    · rename_i t ht
      obtain ⟨ho, rfl⟩ := (arm_ok_iff _ _ _ _ _ _).1 ht
      rw [hp]
      constructor
      · intro e
        cases e
        exact ⟨by omega, ho, rfl⟩
      · intro e
        rw [e.2.2]
        rfl

/-! ### `begin_tx`, `begin_rx` -/

theorem minLen_toNat (a b : Len) : (minLen a b).toNat = min a.toNat b.toNat := by
  unfold minLen
  split <;> omega

/-- The owed packet: not cleared by the first chunk exactly where that chunk is full. -/
theorem owed_iff (l r m : Nat) :
    (!decide (l < m) && decide (l < r)) = (decide (l < r) && decide (m ≤ l)) := by
  by_cases h : l < m
  · simp [h]
  · simp [h, Nat.not_lt.1 h]

/-- `begin_tx` with no TX descriptor owned arms the first chunk and returns the effective length. -/
theorem beginTx_of_noneOwned (buf : Addr) (len req : Len) (cb : Option CallbackId) (ctx : Addr) (s : State)
    (h : noneOwned .tx s) : beginTx buf len req cb ctx s = .ok (armedTx buf len req cb ctx s, minLen len req) := by
  have h1 := (dirOwned_eq_false_iff .tx s).2 h
  have hb : buf.toNat < memSize := buf.isLt
  have hs := noneOwned_slot h s.tx.pingpong
  obtain ⟨u, hu⟩ : ∃ u, armChunk .tx (setupPipe .tx buf (minLen len req) (shortAtBegin (minLen len req) req) cb ctx s) = .ok u := by
    refine ⟨_, (armChunk_ok_iff _ _ _).2 ⟨?_, ?_, rfl⟩⟩
    · show buf.toNat + (0 : Len).toNat < memSize
      exact hb
    · exact hs
  have hu' := ((armChunk_ok_iff _ _ _).1 hu).2.2
  simp only [beginTx, h1, armTxChunk, hu, if_neg Bool.false_ne_true]
  subst hu'
  simp [setupPipe, countTxChunk, armedTx, chunkLen, State.setPipe, State.setBd, State.pipe, minLen, shortAtBegin,
    shortAfterChunk, State.bdAt]
  exact owed_iff _ _ _

/-- `begin_tx` with a TX descriptor owned is fault(R171). -/
theorem beginTx_of_owned (buf : Addr) (len req : Len) (cb : Option CallbackId) (ctx : Addr) (s : State)
    (h : ¬ noneOwned .tx s) : beginTx buf len req cb ctx s = .error (.fault .r171) := by
  have h1 : dirOwned .tx s = true := by
    rw [← Bool.not_eq_false, dirOwned_eq_false_iff]
    exact h
  simp [beginTx, h1]

/-- `begin_rx` with no RX descriptor owned arms the first chunk and returns the maximum length. -/
theorem beginRx_of_noneOwned (buf : Addr) (max : Len) (cb : Option CallbackId) (ctx : Addr) (s : State)
    (h : noneOwned .rx s) : beginRx buf max cb ctx s = .ok (armedRx buf max cb ctx s, max) := by
  have h1 := (dirOwned_eq_false_iff .rx s).2 h
  have hb : buf.toNat < memSize := buf.isLt
  have hs := noneOwned_slot h s.rx.pingpong
  obtain ⟨u, hu⟩ : ∃ u, armChunk .rx (setupPipe .rx buf max false cb ctx s) = .ok u := by
    refine ⟨_, (armChunk_ok_iff _ _ _).2 ⟨?_, ?_, rfl⟩⟩
    · show buf.toNat + (0 : Len).toNat < memSize
      exact hb
    · exact hs
  have hu' := ((armChunk_ok_iff _ _ _).1 hu).2.2
  simp only [beginRx, h1, armRxChunk, hu, if_neg Bool.false_ne_true]
  subst hu'
  simp [setupPipe, armedRx, chunkLen, State.setPipe, State.setBd, State.pipe, State.bdAt]

/-- `begin_rx` with an RX descriptor owned is fault(R201). -/
theorem beginRx_of_owned (buf : Addr) (max : Len) (cb : Option CallbackId) (ctx : Addr) (s : State)
    (h : ¬ noneOwned .rx s) : beginRx buf max cb ctx s = .error (.fault .r201) := by
  have h1 : dirOwned .rx s = true := by
    rw [← Bool.not_eq_false, dirOwned_eq_false_iff]
    exact h
  simp [beginRx, h1]

/-! ### The stages of a control transfer -/

/-- `ArmSetup` with no RX descriptor owned. -/
theorem armSetup_of_noneOwned (s : State) (h : noneOwned .rx s) : armSetup s = .ok (setupArmed s) := by
  have h' : noneOwned .rx (forceToggle .tx .data1 (forceToggle .rx .data0 s)) := noneOwned_congr (by simp [forceToggle]) h
  simp only [armSetup, beginRx_of_noneOwned _ _ _ _ _ h', dropResult]
  rfl

/-- `ArmSetup` with an RX descriptor owned is fault(R201). -/
theorem armSetup_of_owned (s : State) (h : ¬ noneOwned .rx s) : armSetup s = .error (.fault .r201) := by
  have h' : ¬ noneOwned .rx (forceToggle .tx .data1 (forceToggle .rx .data0 s)) :=
    fun k => h (noneOwned_congr (by simp [forceToggle]) k)
  simp only [armSetup, beginRx_of_owned _ _ _ _ _ h', dropResult]

/-- `EnterStatus(TX)` with no TX descriptor owned. -/
theorem enterStatus_tx_of_noneOwned (s : State) (h : noneOwned .tx s) : enterStatus .tx s = .ok (statusInState s) := by
  have h' : noneOwned .tx (forceToggle .tx .data1 (s.setStage .status)) := noneOwned_congr (by simp [forceToggle]) h
  simp only [enterStatus, beginTx_of_noneOwned _ _ _ _ _ _ h', dropResult]
  rfl

/-- `EnterStatus(TX)` with a TX descriptor owned is fault(R171). -/
theorem enterStatus_tx_of_owned (s : State) (h : ¬ noneOwned .tx s) : enterStatus .tx s = .error (.fault .r171) := by
  have h' : ¬ noneOwned .tx (forceToggle .tx .data1 (s.setStage .status)) :=
    fun k => h (noneOwned_congr (by simp [forceToggle]) k)
  simp only [enterStatus, beginTx_of_owned _ _ _ _ _ _ h', dropResult]

/-- `EnterStatus(RX)` with no RX descriptor owned. -/
theorem enterStatus_rx_of_noneOwned (s : State) (h : noneOwned .rx s) : enterStatus .rx s = .ok (statusOutState s) := by
  have h' : noneOwned .rx (forceToggle .rx .data1 (s.setStage .status)) := noneOwned_congr (by simp [forceToggle]) h
  simp only [enterStatus, beginRx_of_noneOwned _ _ _ _ _ h', dropResult]
  rfl

/-- `EnterStatus(RX)` with an RX descriptor owned is fault(R201). -/
theorem enterStatus_rx_of_owned (s : State) (h : ¬ noneOwned .rx s) : enterStatus .rx s = .error (.fault .r201) := by
  have h' : ¬ noneOwned .rx (forceToggle .rx .data1 (s.setStage .status)) :=
    fun k => h (noneOwned_congr (by simp [forceToggle]) k)
  simp only [enterStatus, beginRx_of_owned _ _ _ _ _ h', dropResult]

/-- `ProtocolError` with no RX descriptor owned. -/
theorem protocolError_of_noneOwned (s : State) (h : noneOwned .rx s) : protocolError s = .ok (protocolErrorState s) := by
  have h' : noneOwned .rx (((s.setEp0Stall true).emit .stall).setStage .idle) := noneOwned_congr (by simp) h
  have h0 : apiStall 0 s = .ok ((s.setEp0Stall true).emit .stall) := by simp [apiStall]
  simp only [protocolError, h0]
  rw [armSetup_of_noneOwned _ h']
  rfl

/-- `ProtocolError` with an RX descriptor owned is fault(R201). -/
theorem protocolError_of_owned (s : State) (h : ¬ noneOwned .rx s) : protocolError s = .error (.fault .r201) := by
  have h' : ¬ noneOwned .rx (((s.setEp0Stall true).emit .stall).setStage .idle) :=
    fun k => h (noneOwned_congr (by simp) k)
  have h0 : apiStall 0 s = .ok ((s.setEp0Stall true).emit .stall) := by simp [apiStall]
  simp only [protocolError, h0]
  exact armSetup_of_owned _ h'

/-- `StatusDone` with no RX descriptor owned. -/
theorem statusDone_of_noneOwned (s : State) (h : noneOwned .rx s) : statusDone s = .ok (statusDoneState s) := by
  have h' : noneOwned .rx (commitAddress (s.setStage .idle)) := by
    unfold commitAddress
    split
    · exact noneOwned_congr (by simp) h
    · exact noneOwned_congr (by simp) h
  rw [statusDone, armSetup_of_noneOwned _ h']
  unfold statusDoneState commitAddress
  by_cases hd : s.devState = .settingAddress
  · have hd' : (s.setStage .idle).devState = .settingAddress := hd
    rw [if_pos hd, if_pos hd']
    rfl
  · have hd' : ¬ (s.setStage .idle).devState = .settingAddress := hd
    rw [if_neg hd, if_neg hd']
    rfl

/-- The state in which a handler runs is the one the rule gives. -/
theorem openRequest_eq (r : ControlReq) (s : State) : openRequest r s = requestState r s := by
  simp only [openRequest, cancelEp0, requestState, setupPipeState, forceToggle, clearTransfer, disown, State.setPipe,
    State.setBd, State.setReq, State.setStage, State.pipe]
  congr 1
  have : (s.bd.set (bd0 .tx .even) { s.bdAt (bd0 .tx .even) with own := false })[bd0 .tx .odd] = s.bdAt (bd0 .tx .odd) := by
    have hne : (bd0 .tx .even).val ≠ (bd0 .tx .odd).val := by decide
    simp [State.bdAt, Vector.getElem_set_ne, hne]
  simp only [State.bdAt] at this ⊢
  rw [this]

/-- After a SETUP's cancellation no TX descriptor is owned. -/
theorem requestState_noneOwned_tx (r : ControlReq) (s : State) : noneOwned .tx (requestState r s) := by
  have hne : (bd0 .tx .odd).val ≠ (bd0 .tx .even).val := by decide
  constructor
  · simp [requestState, State.bdAt, Vector.getElem_set_ne, hne]
  · simp [requestState, State.bdAt]

/-- A SETUP's cancellation does not touch the RX descriptors. -/
theorem requestState_noneOwned_rx (r : ControlReq) (s : State) (h : noneOwned .rx s) : noneOwned .rx (requestState r s) := by
  have h1 : (bd0 .tx .odd).val ≠ (bd0 .rx .even).val := by decide
  have h2 : (bd0 .tx .even).val ≠ (bd0 .rx .even).val := by decide
  have h3 : (bd0 .tx .odd).val ≠ (bd0 .rx .odd).val := by decide
  have h4 : (bd0 .tx .even).val ≠ (bd0 .rx .odd).val := by decide
  obtain ⟨ha, hb⟩ := h
  constructor
  · simpa [requestState, State.bdAt, Vector.getElem_set_ne, h1, h2] using ha
  · simpa [requestState, State.bdAt, Vector.getElem_set_ne, h3, h4] using hb

/-! ### The end of a step -/

/-- The end of a step that completes. -/
@[simp] theorem finish_ok (s t : State) (v : Ret) : finish s (.ok (t, v)) = .next (returned v t) := rfl

/-- The end of a step that faults or is refused: the mark, and nothing else. -/
@[simp] theorem finish_error (s : State) (m : BadMark) : finish s (.error m) = .next (marked m s) := by
  cases h : s.bad <;> simp [finish, State.mark, State.setRet, marked, h]

@[simp] theorem finishUnit_ok (s t : State) : finishUnit s (.ok t) = .next (returned .nothing t) := rfl

@[simp] theorem finishUnit_error (s : State) (m : BadMark) : finishUnit s (.error m) = .next (marked m s) :=
  finish_error s m

end Sys2Proof.Machine
end

