-- ==== Sys2Proof/Laws/Control.lean ====
section
/-! SUPPORT. What the engines' `advance` and the control state machine can do, each said once. -/

namespace Sys2Proof.Machine

open Sys2Proof

/-- `resolve` reads back what a status word names, whatever its ignored bits (40_bd_directory.md R151). -/
theorem resolve_statWord (ep : BitVec 4) (d : Dir) (pp : Slot) (rsv : BitVec 2) :
    resolve (statWord ep d pp rsv) = ⟨ep, d, pp, bdIndex ep d pp⟩ := by
  revert ep rsv
  cases d <;> cases pp <;> decide +kernel

theorem flipPipeToggle_tx (s : State) : (flipPipeToggle .tx s) = { s with tx := { s.tx with data01 := flipToggle s.tx.data01 } } := rfl

theorem flipPipeToggle_rx (s : State) : (flipPipeToggle .rx s) = { s with rx := { s.rx with data01 := flipToggle s.rx.data01 } } := rfl

/-- Arming the next TX chunk after the toggle has been flipped (41_tx_engine.md R174, R177). -/
theorem armTxChunk_flipped (s : State) (h : s.tx.dataBuf.toNat + s.tx.pos.toNat < memSize) (ho : (s.bdAt (bd0 .tx s.tx.pingpong)).own = false) :
   armTxChunk (flipPipeToggle .tx s) = .ok (txNextChunk s) := by
  have := (armChunk_ok_iff .tx (flipPipeToggle .tx s) _).2 ⟨h, ho, rfl⟩
  simp only [armTxChunk, this]
  simp only [countTxChunk, txNextChunk, State.setPipe, State.setBd, State.pipe, flipPipeToggle_tx, State.bdAt, chunkLen, shortAfterChunk]
  simp
  rw [Bool.and_comm, ← decide_not]
  simp only [Nat.not_lt]

/-- A chunk that would start past the top of `MEM` (20_memory.md R71). -/
theorem armChunk_past_top (d s) (h : memSize ≤ (s.pipe d).dataBuf.toNat + (s.pipe d).pos.toNat) : armChunk d s = .error (.fault .r71) := by
  simp only [armChunk, h, if_true]

/-- Arming a chunk where the slot is owned (20_memory.md R75). -/
theorem armChunk_owned (d s) (h : (s.pipe d).dataBuf.toNat + (s.pipe d).pos.toNat < memSize) (ho : (s.bdAt (bd0 d (s.pipe d).pingpong)).own = true) : armChunk d s = .error (.fault .r75) := by
  simp only [armChunk, Nat.not_le.2 h, if_false, arm, ho, if_true]

/-- `advance_tx` with bytes left or a zero-length packet owed (41_tx_engine.md R177). -/
theorem advanceTx_of_not_done (s : State) (hd : ¬ txDone s) : advanceTx s = match armTxChunk (flipPipeToggle .tx s) with | .error m => .error m | .ok t => .ok (t, .more) := by
  have : (flipPipeToggle .tx s).tx.pos.toNat < (flipPipeToggle .tx s).tx.transferSize.toNat ∨ (flipPipeToggle .tx s).tx.shortTransfer = true := by
    simp only [txDone, not_and] at hd
    by_cases h : s.tx.transferSize.toNat ≤ s.tx.pos.toNat
    · right; show s.tx.shortTransfer = true; simpa using hd h
    · left; exact Nat.lt_of_not_le h
  simp only [advanceTx, State.pipe, this, if_true] <;> rfl

/-- `advance_tx` at the end of a transfer (41_tx_engine.md R177). -/
theorem advanceTx_of_done (s : State) (hd : txDone s) : advanceTx s = .ok (txFinished s, .finished) := by
  have : ¬ ((flipPipeToggle .tx s).tx.pos.toNat < (flipPipeToggle .tx s).tx.transferSize.toNat ∨ (flipPipeToggle .tx s).tx.shortTransfer = true) := by
    rintro (h | h)
    · exact absurd h (Nat.not_lt.2 hd.1)
    · have : s.tx.shortTransfer = true := h
      rw [hd.2] at this; cases this
  simp only [advanceTx, State.pipe, this, if_false]
  simp only [finishTransfer, State.pipe, txFinished, flipPipeToggle_tx]
  cases h : s.tx.callback <;> rfl

/-- `advance_rx` with more bytes than there is room for (42_rx_engine.md R206). -/
theorem advanceRx_of_overrun (i s) (h : s.rx.transferSize.toNat < s.rx.pos.toNat + (s.bdAt i).bc.toNat) : advanceRx i s = .error (.fault .r206) := by
  unfold advanceRx
  have : (flipPipeToggle .rx s).rx.transferSize.toNat < (flipPipeToggle .rx s).rx.pos.toNat + ((flipPipeToggle .rx s).bdAt i).bc.toNat := h
  simp only [State.pipe, this, if_true]

/-- `advance_rx` at the end of a transfer (42_rx_engine.md R206). -/
theorem advanceRx_of_done (i s) (h : s.rx.pos.toNat + (s.bdAt i).bc.toNat ≤ s.rx.transferSize.toNat) (hd : rxDone (s.bdAt i).bc.toNat s) : advanceRx i s = .ok (rxFinished (s.bdAt i).bc.toNat s, .finished) := by
  unfold advanceRx
  have : ¬ (flipPipeToggle .rx s).rx.transferSize.toNat < (flipPipeToggle .rx s).rx.pos.toNat + ((flipPipeToggle .rx s).bdAt i).bc.toNat := Nat.not_lt.2 h
  have h3 : ((flipPipeToggle .rx s).bdAt i).bc.toNat < (flipPipeToggle .rx s).rx.epMaxsize.toNat ∨ (flipPipeToggle .rx s).rx.transferSize.toNat ≤ (flipPipeToggle .rx s).rx.pos.toNat + ((flipPipeToggle .rx s).bdAt i).bc.toNat := hd
  simp only [State.pipe, this, if_false, h3, if_true]
  simp only [finishTransfer, State.pipe, rxFinished, flipPipeToggle_rx, State.setPipe]
  cases h : s.rx.callback <;> rfl

/-- `advance_rx` with room left after a full packet (42_rx_engine.md R206). -/
theorem advanceRx_of_not_done (i s) (h : s.rx.pos.toNat + (s.bdAt i).bc.toNat ≤ s.rx.transferSize.toNat) (hd : ¬ rxDone (s.bdAt i).bc.toNat s) :
   advanceRx i s = match armChunk .rx { s with rx := { s.rx with data01 := flipToggle s.rx.data01, pos := BitVec.ofNat 32 (s.rx.pos.toNat + (s.bdAt i).bc.toNat) } } with | .error m => .error m | .ok t => .ok (t, .more) := by
  unfold advanceRx
  have : ¬ (flipPipeToggle .rx s).rx.transferSize.toNat < (flipPipeToggle .rx s).rx.pos.toNat + ((flipPipeToggle .rx s).bdAt i).bc.toNat := Nat.not_lt.2 h
  have h3 : ¬ (((flipPipeToggle .rx s).bdAt i).bc.toNat < (flipPipeToggle .rx s).rx.epMaxsize.toNat ∨ (flipPipeToggle .rx s).rx.transferSize.toNat ≤ (flipPipeToggle .rx s).rx.pos.toNat + ((flipPipeToggle .rx s).bdAt i).bc.toNat) := hd
  simp only [State.pipe, this, if_false, h3]
  rfl

/-- The received count does not wrap. -/
theorem rxCount_toNat (s : State) (r : Nat) (h : s.rx.pos.toNat + r ≤ s.rx.transferSize.toNat) : (BitVec.ofNat 32 (s.rx.pos.toNat + r)).toNat = s.rx.pos.toNat + r := by
  have := s.rx.transferSize.isLt
  simp; omega

/-- `advance_rx` with room left arms the next chunk (42_rx_engine.md R206). -/
theorem advanceRx_of_room (i s) (h : s.rx.pos.toNat + (s.bdAt i).bc.toNat ≤ s.rx.transferSize.toNat) (hd : ¬ rxDone (s.bdAt i).bc.toNat s) 
   (ha : s.rx.dataBuf.toNat + (s.rx.pos.toNat + (s.bdAt i).bc.toNat) < memSize) (ho : (s.bdAt (bd0 .rx s.rx.pingpong)).own = false) :
   advanceRx i s = .ok (rxNextChunk (s.bdAt i).bc.toNat s, .more) := by
  rw [advanceRx_of_not_done i s h hd]
  have h2 := rxCount_toNat s _ h
  rw [(armChunk_ok_iff .rx { s with rx := { s.rx with data01 := flipToggle s.rx.data01, pos := BitVec.ofNat 32 (s.rx.pos.toNat + (s.bdAt i).bc.toNat) } } _).2 ⟨by simp only [State.pipe]; rw [h2]; exact ha, ho, rfl⟩]
  simp only [State.bdAt] at h2
  simp only [State.pipe, chunkLen, State.setPipe, State.setBd, rxNextChunk, State.bdAt]
  rw [h2]

/-- Everything `begin_tx` can answer. -/
theorem beginTx_ok {buf len req cb ctx s u l} (h : beginTx buf len req cb ctx s = .ok (u, l)) : noneOwned .tx s ∧ u = armedTx buf len req cb ctx s ∧ l = minLen len req := by
  by_cases hn : noneOwned .tx s
  · rw [beginTx_of_noneOwned _ _ _ _ _ _ hn] at h; cases h; exact ⟨hn, rfl, rfl⟩
  · rw [beginTx_of_owned _ _ _ _ _ _ hn] at h; cases h

/-- Everything `begin_rx` can answer. -/
theorem beginRx_ok {buf max cb ctx s u l} (h : beginRx buf max cb ctx s = .ok (u, l)) : noneOwned .rx s ∧ u = armedRx buf max cb ctx s ∧ l = max := by
  by_cases hn : noneOwned .rx s
  · rw [beginRx_of_noneOwned _ _ _ _ _ hn] at h; cases h; exact ⟨hn, rfl, rfl⟩
  · rw [beginRx_of_owned _ _ _ _ _ hn] at h; cases h

/-- Everything `ArmSetup` can answer. -/
theorem armSetup_ok {s u} (h : armSetup s = .ok u) : noneOwned .rx s ∧ u = setupArmed s := by
  by_cases hn : noneOwned .rx s
  · rw [armSetup_of_noneOwned _ hn] at h; cases h; exact ⟨hn, rfl⟩
  · rw [armSetup_of_owned _ hn] at h; cases h

/-- Everything `ProtocolError` can answer. -/
theorem protocolError_ok {s u} (h : protocolError s = .ok u) : noneOwned .rx s ∧ u = protocolErrorState s := by
  by_cases hn : noneOwned .rx s
  · rw [protocolError_of_noneOwned _ hn] at h; cases h; exact ⟨hn, rfl⟩
  · rw [protocolError_of_owned _ hn] at h; cases h

/-- Everything `EnterStatus(TX)` can answer. -/
theorem enterStatus_tx_ok {s u} (h : enterStatus .tx s = .ok u) : noneOwned .tx s ∧ u = statusInState s := by
  by_cases hn : noneOwned .tx s
  · rw [enterStatus_tx_of_noneOwned _ hn] at h; cases h; exact ⟨hn, rfl⟩
  · rw [enterStatus_tx_of_owned _ hn] at h; cases h

/-- Everything `EnterStatus(RX)` can answer. -/
theorem enterStatus_rx_ok {s u} (h : enterStatus .rx s = .ok u) : noneOwned .rx s ∧ u = statusOutState s := by
  by_cases hn : noneOwned .rx s
  · rw [enterStatus_rx_of_noneOwned _ hn] at h; cases h; exact ⟨hn, rfl⟩
  · rw [enterStatus_rx_of_owned _ hn] at h; cases h

/-- `StatusDone` with an RX descriptor owned is fault(R201). -/
theorem statusDone_of_owned (s) (h : ¬ noneOwned .rx s) : statusDone s = .error (.fault .r201) := by
  rw [statusDone, armSetup_of_owned]
  intro k; apply h
  refine noneOwned_congr ?_ k
  unfold commitAddress; split <;> rfl

/-- Everything `StatusDone` can answer. -/
theorem statusDone_ok {s u} (h : statusDone s = .ok u) : noneOwned .rx s ∧ u = statusDoneState s := by
  by_cases hn : noneOwned .rx s
  · rw [statusDone_of_noneOwned _ hn] at h; cases h; exact ⟨hn, rfl⟩
  · rw [statusDone_of_owned _ hn] at h; cases h

/-- Everything `advance_tx` can answer. -/
theorem advanceTx_ok {s u p} (h : advanceTx s = .ok (u, p)) :
   (txDone s ∧ u = txFinished s ∧ p = .finished) ∨ (¬ txDone s ∧ p = .more ∧ s.tx.dataBuf.toNat + s.tx.pos.toNat < memSize ∧ (s.bdAt (bd0 .tx s.tx.pingpong)).own = false ∧ u = txNextChunk s) := by
  by_cases hd : txDone s
  · rw [advanceTx_of_done s hd] at h; cases h; exact .inl ⟨hd, rfl, rfl⟩
  · rw [advanceTx_of_not_done s hd] at h
    right
    by_cases ha : s.tx.dataBuf.toNat + s.tx.pos.toNat < memSize
    · by_cases ho : (s.bdAt (bd0 .tx s.tx.pingpong)).own = false
      · rw [armTxChunk_flipped s ha ho] at h; cases h; exact ⟨hd, rfl, ha, ho, rfl⟩
      · have : armChunk .tx (flipPipeToggle .tx s) = _ := armChunk_owned .tx (flipPipeToggle .tx s) ha (Bool.eq_true_of_not_eq_false ho)
        simp only [armTxChunk, this] at h; cases h
    · have : armChunk .tx (flipPipeToggle .tx s) = _ := armChunk_past_top .tx (flipPipeToggle .tx s) (Nat.not_lt.1 ha)
      simp only [armTxChunk, this] at h; cases h

/-- Everything `advance_rx` can answer. -/
theorem advanceRx_ok {i s u p} (h : advanceRx i s = .ok (u, p)) :
   s.rx.pos.toNat + (s.bdAt i).bc.toNat ≤ s.rx.transferSize.toNat ∧
   ((rxDone (s.bdAt i).bc.toNat s ∧ u = rxFinished (s.bdAt i).bc.toNat s ∧ p = .finished) ∨ 
    (¬ rxDone (s.bdAt i).bc.toNat s ∧ p = .more ∧ s.rx.dataBuf.toNat + (s.rx.pos.toNat + (s.bdAt i).bc.toNat) < memSize ∧ (s.bdAt (bd0 .rx s.rx.pingpong)).own = false ∧ u = rxNextChunk (s.bdAt i).bc.toNat s)) := by
  by_cases hp : s.rx.transferSize.toNat < s.rx.pos.toNat + (s.bdAt i).bc.toNat
  · rw [advanceRx_of_overrun _ _ hp] at h; cases h
  have hp := Nat.not_lt.1 hp
  refine ⟨hp, ?_⟩
  by_cases hd : rxDone (s.bdAt i).bc.toNat s
  · rw [advanceRx_of_done i s hp hd] at h; cases h; exact .inl ⟨hd, rfl, rfl⟩
  · right
    have h2 := rxCount_toNat s _ hp
    by_cases ha : s.rx.dataBuf.toNat + (s.rx.pos.toNat + (s.bdAt i).bc.toNat) < memSize
    · by_cases ho : (s.bdAt (bd0 .rx s.rx.pingpong)).own = false
      · rw [advanceRx_of_room i s hp hd ha ho] at h; cases h; exact ⟨hd, rfl, ha, ho, rfl⟩
      · rw [advanceRx_of_not_done i s hp hd, armChunk_owned .rx { s with rx := { s.rx with data01 := flipToggle s.rx.data01, pos := BitVec.ofNat 32 (s.rx.pos.toNat + (s.bdAt i).bc.toNat) } } (by simp only [State.pipe]; rw [h2]; exact ha) (Bool.eq_true_of_not_eq_false ho)] at h
        cases h
    · rw [advanceRx_of_not_done i s hp hd, armChunk_past_top .rx { s with rx := { s.rx with data01 := flipToggle s.rx.data01, pos := BitVec.ofNat 32 (s.rx.pos.toNat + (s.bdAt i).bc.toNat) } } (by simp only [State.pipe]; rw [h2]; omega)] at h
      cases h

/-- Everything `OnData` can answer (43_control_fsm.md R237). -/
theorem onData_ok {d i s u} (h : onData d i s = .ok u) :
   (s.stage = .idle ∧ noneOwned .rx s ∧ u = protocolErrorState s) ∨
   (d = .tx ∧ s.stage = .data ∧ ¬ txDone s ∧ s.tx.dataBuf.toNat + s.tx.pos.toNat < memSize ∧ (s.bdAt (bd0 .tx s.tx.pingpong)).own = false ∧ u = txNextChunk s) ∨
   (d = .tx ∧ s.stage = .data ∧ txDone s ∧ noneOwned .rx s ∧ u = statusOutState (txFinished s)) ∨
   (d = .tx ∧ s.stage = .status ∧ txDone s ∧ noneOwned .rx s ∧ u = statusDoneState (txFinished s)) ∨
   (d = .rx ∧ s.rx.pos.toNat + (s.bdAt i).bc.toNat ≤ s.rx.transferSize.toNat ∧ s.stage = .data ∧ ¬ rxDone (s.bdAt i).bc.toNat s ∧ s.rx.dataBuf.toNat + (s.rx.pos.toNat + (s.bdAt i).bc.toNat) < memSize ∧ (s.bdAt (bd0 .rx s.rx.pingpong)).own = false ∧ u = rxNextChunk (s.bdAt i).bc.toNat s) ∨
   (d = .rx ∧ s.rx.pos.toNat + (s.bdAt i).bc.toNat ≤ s.rx.transferSize.toNat ∧ s.stage = .data ∧ rxDone (s.bdAt i).bc.toNat s ∧ noneOwned .tx s ∧ u = statusInState (rxFinished (s.bdAt i).bc.toNat s)) ∨
   (d = .rx ∧ s.rx.pos.toNat + (s.bdAt i).bc.toNat ≤ s.rx.transferSize.toNat ∧ s.stage = .status ∧ rxDone (s.bdAt i).bc.toNat s ∧ noneOwned .rx s ∧ u = statusDoneState (rxFinished (s.bdAt i).bc.toNat s)) := by
  unfold onData at h
  split at h
  · rename_i hs
    exact .inl ⟨hs, (protocolError_ok h).1, (protocolError_ok h).2⟩
  · rename_i hs
    right
    split at h
    · cases h
    · rename_i t ha
      cases h
      cases d
      · obtain ⟨h1, h2 | h2⟩ := advanceRx_ok ha
        · cases h2.2.2
        · simp [*]
      · obtain h2 | h2 := advanceTx_ok ha
        · cases h2.2.2
        · simp [*]
    · rename_i t ha
      cases d
      · obtain ⟨h1, h2 | h2⟩ := advanceRx_ok ha
        · obtain ⟨h3, rfl, -⟩ := h2
          obtain ⟨h4, rfl⟩ := enterStatus_tx_ok h
          have : noneOwned .tx s := h4
          simp [*]
        · cases h2.2.1
      · obtain h2 | h2 := advanceTx_ok ha
        · obtain ⟨h3, rfl, -⟩ := h2
          obtain ⟨h4, rfl⟩ := enterStatus_rx_ok h
          have : noneOwned .rx s := h4
          simp [*]
        · cases h2.2.1
  · rename_i hs
    right
    split at h
    · cases h
    · cases h
    · rename_i t ha
      cases d
      · obtain ⟨h1, h2 | h2⟩ := advanceRx_ok ha
        · obtain ⟨h3, rfl, -⟩ := h2
          obtain ⟨h4, rfl⟩ := statusDone_ok h
          have : noneOwned .rx s := h4
          simp [*]
        · cases h2.2.1
      · obtain h2 | h2 := advanceTx_ok ha
        · obtain ⟨h3, rfl, -⟩ := h2
          obtain ⟨h4, rfl⟩ := statusDone_ok h
          have : noneOwned .rx s := h4
          simp [*]
        · cases h2.2.1

/-- `OnEvent` for an endpoint-0 status word, in terms of its direction and slot (43_control_fsm.md R235). -/
theorem onEvent_statWord (tok) (d pp rsv) (s) : onEvent (statWord 0 d pp rsv) tok s =
   if isDiag tok then .ok s else if (s.bdAt (bd0 d pp)).own then .error (.fault .r235)
   else if tok = tokSetup ∧ d = .rx then onSetup (bd0 d pp) s
   else if (tok = tokOut ∧ d = .rx) ∨ (tok = tokIn ∧ d = .tx) then onData d (bd0 d pp) s
   else .error (.fault .r247) := by
  simp only [onEvent, resolve_statWord]
  simp [onDiag]; rfl

theorem onEvent_statOf (tok) (d pp) (s) : onEvent (statOf 0 d pp) tok s =
   if isDiag tok then .ok s else if (s.bdAt (bd0 d pp)).own then .error (.fault .r235)
   else if tok = tokSetup ∧ d = .rx then onSetup (bd0 d pp) s
   else if (tok = tokOut ∧ d = .rx) ∨ (tok = tokIn ∧ d = .tx) then onData d (bd0 d pp) s
   else .error (.fault .r247) := onEvent_statWord tok d pp 0 s

theorem onEvent_setup (pp rsv s) : onEvent (statWord 0 .rx pp rsv) tokSetup s = if (s.bdAt (bd0 .rx pp)).own then .error (.fault .r235) else onSetup (bd0 .rx pp) s := by
  rw [onEvent_statWord]; rfl

theorem onEvent_out (pp rsv s) : onEvent (statWord 0 .rx pp rsv) tokOut s = if (s.bdAt (bd0 .rx pp)).own then .error (.fault .r235) else onData .rx (bd0 .rx pp) s := by
  rw [onEvent_statWord]; rfl

theorem onEvent_in (pp rsv s) : onEvent (statWord 0 .tx pp rsv) tokIn s = if (s.bdAt (bd0 .tx pp)).own then .error (.fault .r235) else onData .tx (bd0 .tx pp) s := by
  rw [onEvent_statWord]; rfl

theorem isDiag_code (t : DiagTok) : isDiag t.code = true := by cases t <;> rfl

theorem bdAt_of_set (s : State) (bd' : Vector Bd 64) (i j : Fin 64) (b : Bd) (h : bd' = s.bd.set i b) : bd'[j] = if j = i then b else s.bdAt j := by
  subst h
  by_cases hij : j = i
  · subst hij; simp
  · have : i.val ≠ j.val := fun e => hij (Fin.ext e.symm)
    rw [if_neg hij]
    simp [State.bdAt, Vector.getElem_set_ne, this]

theorem armedTx_bdAt (buf len req cb ctx) (s : State) (j : Fin 64) : (armedTx buf len req cb ctx s).bdAt j = if j = bd0 .tx s.tx.pingpong then armedBd buf (min (min len.toNat req.toNat) s.tx.epMaxsize.toNat) s.tx.data01 (s.bdAt j) else s.bdAt j := by
  have e : (if len.toNat ≤ req.toNat then len else req : Len).toNat = min len.toNat req.toNat := minLen_toNat len req
  rw [← e]
  rw [show (armedTx buf len req cb ctx s).bdAt j = _ from bdAt_of_set s _ _ j _ rfl]
  split
  · rename_i h; rw [h]
  · rfl

theorem armedRx_bdAt (buf max cb ctx) (s : State) (j : Fin 64) : (armedRx buf max cb ctx s).bdAt j = if j = bd0 .rx s.rx.pingpong then armedBd buf (min max.toNat s.rx.epMaxsize.toNat) s.rx.data01 (s.bdAt j) else s.bdAt j := by
  rw [show (armedRx buf max cb ctx s).bdAt j = _ from bdAt_of_set s _ _ j _ rfl]
  split
  · rename_i h; rw [h]
  · rfl

theorem handedBack_bdAt (i n tok s j) : (handedBack i n tok s).bdAt j = if j = i then { s.bdAt i with bc := BitVec.ofNat 10 n, tokPid := tok, own := false } else s.bdAt j := bdAt_of_set s _ _ j _ rfl

theorem txNextChunk_bdAt (s : State) (j) : (txNextChunk s).bdAt j = if j = bd0 .tx s.tx.pingpong then armedBd (BitVec.ofNat 32 (s.tx.dataBuf.toNat + s.tx.pos.toNat)) (min (s.tx.transferSize.toNat - s.tx.pos.toNat) s.tx.epMaxsize.toNat) (flipToggle s.tx.data01) (s.bdAt j) else s.bdAt j := by
  rw [show (txNextChunk s).bdAt j = _ from bdAt_of_set s _ _ j _ rfl]
  split
  · rename_i h; rw [h]
  · rfl

theorem rxNextChunk_bdAt (r) (s : State) (j) : (rxNextChunk r s).bdAt j = if j = bd0 .rx s.rx.pingpong then armedBd (BitVec.ofNat 32 (s.rx.dataBuf.toNat + (s.rx.pos.toNat + r))) (min (s.rx.transferSize.toNat - (s.rx.pos.toNat + r)) s.rx.epMaxsize.toNat) (flipToggle s.rx.data01) (s.bdAt j) else s.bdAt j := by
  rw [show (rxNextChunk r s).bdAt j = _ from bdAt_of_set s _ _ j _ rfl]
  split
  · rename_i h; rw [h]
  · rfl

theorem requestState_bdAt (r s j) : (requestState r s).bdAt j = if j = bd0 .tx .even ∨ j = bd0 .tx .odd then { s.bdAt j with own := false } else s.bdAt j := by
  rw [show (requestState r s).bdAt j = _ from bdAt_of_set { s with bd := s.bd.set (bd0 .tx .even) { s.bdAt (bd0 .tx .even) with own := false }} _ _ j _ rfl]
  rw [show (State.bdAt { s with bd := s.bd.set (bd0 .tx .even) { s.bdAt (bd0 .tx .even) with own := false }} j) = _ from bdAt_of_set s _ _ j _ rfl]
  have : bd0 .tx .odd ≠ bd0 .tx .even := by decide
  split
  · rename_i h; simp [h]
  · rename_i h
    split
    · rename_i h2; simp [h2]
    · rename_i h2; simp [h, h2]

/-- What the legal arguments bound. -/
theorem Params.wf_bounds {p : Params} (h : p.wf = true) : p.maxPacket.toNat ≤ 64 ∧ p.maxPacket.toNat ≤ p.bufSize.toNat ∧ 8 ≤ p.bufSize.toNat ∧ p.bufSize.toNat ≤ 1023 ∧ 8 ≤ p.maxPacket.toNat := by
  simp [Params.wf, Params.maxPacketOk, Params.bufSizeOk, Params.scratchOk] at h
  obtain ⟨⟨⟨h1, h2⟩, h3, h4⟩, h5⟩ := h
  refine ⟨?_, h2, h3, h4, ?_⟩ <;> rcases h1 with ((h1 | h1) | h1) | h1 <;> rw [h1] <;> decide

end Sys2Proof.Machine
end

