-- ==== Sys2Proof/Laws/PerInstr.lean ====
section
/-! SUPPORT. A law per instruction: the number a SETUP or event row's words make agrees with the row's match and mask of
spec/opcode_table.json, and a call, which the table gives no number, has none. -/

namespace Sys2Proof.Laws.TableMatch

open Sys2Proof

/-- The number of an instruction as spec/opcode_table.json numbers bits: SETUP byte 0 in bits 7:0 and byte 1 in bits 15:8, or
the 12-bit event word. -/
def number (i : Instr) : Option (BitVec 16) :=
  match i.req? with
  | some r => some ((encodeReq r).b1 ++ (encodeReq r).b0)
  | none =>
    match i.event? with
    | some w => some ((0 : BitVec 4) ++ w)
    | none => none

/-- The match and mask of the instruction's row in spec/opcode_table.json. -/
def row : Instr → Option (BitVec 16 × BitVec 16)
  | .getStatus _ => some (0x0000, 0xFF60)
  | .clearFeature _ => some (0x0100, 0xFF60)
  | .setFeature _ => some (0x0300, 0xFF60)
  | .setAddress _ => some (0x0500, 0xFF60)
  | .getDescriptor _ => some (0x0600, 0xFF60)
  | .getConfiguration _ => some (0x0800, 0xFF60)
  | .setConfiguration _ => some (0x0900, 0xFF60)
  | .getInterface _ => some (0x0A00, 0xFF60)
  | .setInterface _ => some (0x0B00, 0xFF60)
  | .stdUnrecognised02 _ => some (0x0200, 0xFF60)
  | .stdUnrecognised04 _ => some (0x0400, 0xFF60)
  | .stdUnrecognised07 _ => some (0x0700, 0xFF60)
  | .stdUnrecognised0C0F _ _ => some (0x0C00, 0xFC60)
  | .stdUnrecognised101F _ _ => some (0x1000, 0xF060)
  | .stdUnrecognised203F _ _ => some (0x2000, 0xE060)
  | .stdUnrecognised407F _ _ => some (0x4000, 0xC060)
  | .stdUnrecognised80FF _ _ => some (0x8000, 0x8060)
  | .classRequest _ _ => some (0x0020, 0x0060)
  | .vendorRequest _ _ => some (0x0040, 0x0060)
  | .reservedTypeRequest _ _ => some (0x0060, 0x0060)
  | .evSetupRx _ _ => some (0x0D00, 0x0FF8)
  | .evOutRx _ _ => some (0x0100, 0x0FF8)
  | .evInTx _ _ => some (0x0908, 0x0FF8)
  | .evDiagTimeout _ _ _ => some (0x0000, 0x0FF0)
  | .evDiagAck _ _ _ => some (0x0200, 0x0FF0)
  | .evDiagNak _ _ _ => some (0x0A00, 0x0FF0)
  | .evDiagStall _ _ _ => some (0x0E00, 0x0FF0)
  | .evDiagDataerr _ _ _ => some (0x0F00, 0x0FF0)
  | .evIllegalSetupTx _ _ => some (0x0D08, 0x0FF8)
  | .evIllegalOutTx _ _ => some (0x0108, 0x0FF8)
  | .evIllegalInRx _ _ => some (0x0900, 0x0FF8)
  | .evIllegalTok3 _ _ _ => some (0x0300, 0x0FF0)
  | .evIllegalTok47 _ _ _ _ => some (0x0400, 0x0CF0)
  | .evIllegalTok8 _ _ _ => some (0x0800, 0x0FF0)
  | .evIllegalTokB _ _ _ => some (0x0B00, 0x0FF0)
  | .evIllegalTokC _ _ _ => some (0x0C00, 0x0FF0)
  | .evWrongEndpoint8F _ _ _ _ _ => some (0x0080, 0x0080)
  | .evWrongEndpoint47 _ _ _ _ _ => some (0x0040, 0x00C0)
  | .evWrongEndpoint23 _ _ _ _ _ => some (0x0020, 0x00E0)
  | .evWrongEndpoint1 _ _ _ _ => some (0x0010, 0x00F0)
  | .send _ _ _ _ _ => none
  | .sendSmall _ _ => none
  | .receive _ _ _ _ => none
  | .stall _ => none
  | .query => none
  | .beginTx _ _ _ _ _ => none
  | .beginRx _ _ _ _ => none
  | .envSetup _ _ => none
  | .envIn _ => none
  | .envOut _ _ _ _ => none
  | .envDiag _ _ _ _ => none
  | .reset => none
  | .busreset => none

/-- The law: the instruction's number has the row's fixed bits. -/
def Statement (i : Instr) : Prop :=
  match number i, row i with
  | some w, some (m, k) => w &&& k = m
  | none, none => True
  | _, _ => False

/-- A mask over two bytes is a mask over each. -/
theorem and_bytes (c b m n x y : BitVec 8) (hc : c &&& m = x) (hb : b &&& n = y) :
    ((c ++ b : BitVec 16) &&& (m ++ n : BitVec 16)) = (x ++ y : BitVec 16) := by
  subst hc hb
  exact BitVec.and_append

/-- The type bits of byte 0 under the table's mask. -/
theorem byte0_type (f : ReqFields) (t : BitVec 2) (c : BitVec 8) :
    (encodeReq (f.toReq t c)).b0 &&& 0x60 = (0 : BitVec 1) ++ (t ++ (0 : BitVec 5)) := by
  show (f.dir ++ (t ++ f.recipient) : BitVec 8) &&& 0x60 = _
  generalize f.dir = d
  generalize f.recipient = r
  revert d t r
  decide +kernel

theorem getStatus (f : ReqFields) : Statement (.getStatus f) := by
  exact and_bytes _ _ 0xFF 0x60 0x00 0x00 (by show (0x00 : BitVec 8) &&& _ = _; decide) (byte0_type f 0 _)

theorem clearFeature (f : ReqFields) : Statement (.clearFeature f) := by
  exact and_bytes _ _ 0xFF 0x60 0x01 0x00 (by show (0x01 : BitVec 8) &&& _ = _; decide) (byte0_type f 0 _)

theorem setFeature (f : ReqFields) : Statement (.setFeature f) := by
  exact and_bytes _ _ 0xFF 0x60 0x03 0x00 (by show (0x03 : BitVec 8) &&& _ = _; decide) (byte0_type f 0 _)

theorem setAddress (f : ReqFields) : Statement (.setAddress f) := by
  exact and_bytes _ _ 0xFF 0x60 0x05 0x00 (by show (0x05 : BitVec 8) &&& _ = _; decide) (byte0_type f 0 _)

theorem getDescriptor (f : ReqFields) : Statement (.getDescriptor f) := by
  exact and_bytes _ _ 0xFF 0x60 0x06 0x00 (by show (0x06 : BitVec 8) &&& _ = _; decide) (byte0_type f 0 _)

theorem getConfiguration (f : ReqFields) : Statement (.getConfiguration f) := by
  exact and_bytes _ _ 0xFF 0x60 0x08 0x00 (by show (0x08 : BitVec 8) &&& _ = _; decide) (byte0_type f 0 _)

theorem setConfiguration (f : ReqFields) : Statement (.setConfiguration f) := by
  exact and_bytes _ _ 0xFF 0x60 0x09 0x00 (by show (0x09 : BitVec 8) &&& _ = _; decide) (byte0_type f 0 _)

theorem getInterface (f : ReqFields) : Statement (.getInterface f) := by
  exact and_bytes _ _ 0xFF 0x60 0x0A 0x00 (by show (0x0A : BitVec 8) &&& _ = _; decide) (byte0_type f 0 _)

theorem setInterface (f : ReqFields) : Statement (.setInterface f) := by
  exact and_bytes _ _ 0xFF 0x60 0x0B 0x00 (by show (0x0B : BitVec 8) &&& _ = _; decide) (byte0_type f 0 _)

theorem stdUnrecognised02 (f : ReqFields) : Statement (.stdUnrecognised02 f) := by
  exact and_bytes _ _ 0xFF 0x60 0x02 0x00 (by show (0x02 : BitVec 8) &&& _ = _; decide) (byte0_type f 0 _)

theorem stdUnrecognised04 (f : ReqFields) : Statement (.stdUnrecognised04 f) := by
  exact and_bytes _ _ 0xFF 0x60 0x04 0x00 (by show (0x04 : BitVec 8) &&& _ = _; decide) (byte0_type f 0 _)

theorem stdUnrecognised07 (f : ReqFields) : Statement (.stdUnrecognised07 f) := by
  exact and_bytes _ _ 0xFF 0x60 0x07 0x00 (by show (0x07 : BitVec 8) &&& _ = _; decide) (byte0_type f 0 _)

theorem stdUnrecognised0C0F (lo : BitVec 2) (f : ReqFields) : Statement (.stdUnrecognised0C0F lo f) := by
  exact and_bytes _ _ 0xFC 0x60 0x0C 0x00 (by show ((3 : BitVec 6) ++ lo : BitVec 8) &&& _ = _; revert lo; decide) (byte0_type f 0 _)

theorem stdUnrecognised101F (lo : BitVec 4) (f : ReqFields) : Statement (.stdUnrecognised101F lo f) := by
  exact and_bytes _ _ 0xF0 0x60 0x10 0x00 (by show ((1 : BitVec 4) ++ lo : BitVec 8) &&& _ = _; revert lo; decide) (byte0_type f 0 _)

theorem stdUnrecognised203F (lo : BitVec 5) (f : ReqFields) : Statement (.stdUnrecognised203F lo f) := by
  exact and_bytes _ _ 0xE0 0x60 0x20 0x00 (by show ((1 : BitVec 3) ++ lo : BitVec 8) &&& _ = _; revert lo; decide) (byte0_type f 0 _)

theorem stdUnrecognised407F (lo : BitVec 6) (f : ReqFields) : Statement (.stdUnrecognised407F lo f) := by
  exact and_bytes _ _ 0xC0 0x60 0x40 0x00 (by show ((1 : BitVec 2) ++ lo : BitVec 8) &&& _ = _; revert lo; decide) (byte0_type f 0 _)

theorem stdUnrecognised80FF (lo : BitVec 7) (f : ReqFields) : Statement (.stdUnrecognised80FF lo f) := by
  exact and_bytes _ _ 0x80 0x60 0x80 0x00 (by show ((1 : BitVec 1) ++ lo : BitVec 8) &&& _ = _; revert lo; decide) (byte0_type f 0 _)

theorem classRequest (request : BitVec 8) (f : ReqFields) : Statement (.classRequest request f) := by
  exact and_bytes _ _ 0x00 0x60 0x00 0x20 (by show request &&& (0 : BitVec 8) = 0; simp) (byte0_type f 1 _)

theorem vendorRequest (request : BitVec 8) (f : ReqFields) : Statement (.vendorRequest request f) := by
  exact and_bytes _ _ 0x00 0x60 0x00 0x40 (by show request &&& (0 : BitVec 8) = 0; simp) (byte0_type f 2 _)

theorem reservedTypeRequest (request : BitVec 8) (f : ReqFields) : Statement (.reservedTypeRequest request f) := by
  exact and_bytes _ _ 0x00 0x60 0x00 0x60 (by show request &&& (0 : BitVec 8) = 0; simp) (byte0_type f 3 _)

theorem evSetupRx (pp : Slot) (rsv : BitVec 2) : Statement (.evSetupRx pp rsv) := by
  show ((0 : BitVec 4) ++ eventBits tokSetup 0 .rx pp rsv : BitVec 16) &&& 0x0FF8 = 0x0D00
  cases pp <;> revert rsv <;> decide +kernel

theorem evOutRx (pp : Slot) (rsv : BitVec 2) : Statement (.evOutRx pp rsv) := by
  show ((0 : BitVec 4) ++ eventBits tokOut 0 .rx pp rsv : BitVec 16) &&& 0x0FF8 = 0x0100
  cases pp <;> revert rsv <;> decide +kernel

theorem evInTx (pp : Slot) (rsv : BitVec 2) : Statement (.evInTx pp rsv) := by
  show ((0 : BitVec 4) ++ eventBits tokIn 0 .tx pp rsv : BitVec 16) &&& 0x0FF8 = 0x0908
  cases pp <;> revert rsv <;> decide +kernel

theorem evDiagTimeout (d : Dir) (pp : Slot) (rsv : BitVec 2) : Statement (.evDiagTimeout d pp rsv) := by
  show ((0 : BitVec 4) ++ eventBits tokTimeout 0 d pp rsv : BitVec 16) &&& 0x0FF0 = 0x0000
  cases d <;> cases pp <;> revert rsv <;> decide +kernel

theorem evDiagAck (d : Dir) (pp : Slot) (rsv : BitVec 2) : Statement (.evDiagAck d pp rsv) := by
  show ((0 : BitVec 4) ++ eventBits tokAck 0 d pp rsv : BitVec 16) &&& 0x0FF0 = 0x0200
  cases d <;> cases pp <;> revert rsv <;> decide +kernel

theorem evDiagNak (d : Dir) (pp : Slot) (rsv : BitVec 2) : Statement (.evDiagNak d pp rsv) := by
  show ((0 : BitVec 4) ++ eventBits tokNak 0 d pp rsv : BitVec 16) &&& 0x0FF0 = 0x0A00
  cases d <;> cases pp <;> revert rsv <;> decide +kernel

theorem evDiagStall (d : Dir) (pp : Slot) (rsv : BitVec 2) : Statement (.evDiagStall d pp rsv) := by
  show ((0 : BitVec 4) ++ eventBits tokStall 0 d pp rsv : BitVec 16) &&& 0x0FF0 = 0x0E00
  cases d <;> cases pp <;> revert rsv <;> decide +kernel

theorem evDiagDataerr (d : Dir) (pp : Slot) (rsv : BitVec 2) : Statement (.evDiagDataerr d pp rsv) := by
  show ((0 : BitVec 4) ++ eventBits tokDataerr 0 d pp rsv : BitVec 16) &&& 0x0FF0 = 0x0F00
  cases d <;> cases pp <;> revert rsv <;> decide +kernel

theorem evIllegalSetupTx (pp : Slot) (rsv : BitVec 2) : Statement (.evIllegalSetupTx pp rsv) := by
  show ((0 : BitVec 4) ++ eventBits tokSetup 0 .tx pp rsv : BitVec 16) &&& 0x0FF8 = 0x0D08
  cases pp <;> revert rsv <;> decide +kernel

theorem evIllegalOutTx (pp : Slot) (rsv : BitVec 2) : Statement (.evIllegalOutTx pp rsv) := by
  show ((0 : BitVec 4) ++ eventBits tokOut 0 .tx pp rsv : BitVec 16) &&& 0x0FF8 = 0x0108
  cases pp <;> revert rsv <;> decide +kernel

theorem evIllegalInRx (pp : Slot) (rsv : BitVec 2) : Statement (.evIllegalInRx pp rsv) := by
  show ((0 : BitVec 4) ++ eventBits tokIn 0 .rx pp rsv : BitVec 16) &&& 0x0FF8 = 0x0900
  cases pp <;> revert rsv <;> decide +kernel

theorem evIllegalTok3 (d : Dir) (pp : Slot) (rsv : BitVec 2) : Statement (.evIllegalTok3 d pp rsv) := by
  show ((0 : BitVec 4) ++ eventBits 0x3 0 d pp rsv : BitVec 16) &&& 0x0FF0 = 0x0300
  cases d <;> cases pp <;> revert rsv <;> decide +kernel

theorem evIllegalTok47 (lo : BitVec 2) (d : Dir) (pp : Slot) (rsv : BitVec 2) : Statement (.evIllegalTok47 lo d pp rsv) := by
  show ((0 : BitVec 4) ++ eventBits ((1 : BitVec 2) ++ lo) 0 d pp rsv : BitVec 16) &&& 0x0CF0 = 0x0400
  cases d <;> cases pp <;> revert lo rsv <;> decide +kernel

theorem evIllegalTok8 (d : Dir) (pp : Slot) (rsv : BitVec 2) : Statement (.evIllegalTok8 d pp rsv) := by
  show ((0 : BitVec 4) ++ eventBits 0x8 0 d pp rsv : BitVec 16) &&& 0x0FF0 = 0x0800
  cases d <;> cases pp <;> revert rsv <;> decide +kernel

theorem evIllegalTokB (d : Dir) (pp : Slot) (rsv : BitVec 2) : Statement (.evIllegalTokB d pp rsv) := by
  show ((0 : BitVec 4) ++ eventBits 0xB 0 d pp rsv : BitVec 16) &&& 0x0FF0 = 0x0B00
  cases d <;> cases pp <;> revert rsv <;> decide +kernel

theorem evIllegalTokC (d : Dir) (pp : Slot) (rsv : BitVec 2) : Statement (.evIllegalTokC d pp rsv) := by
  show ((0 : BitVec 4) ++ eventBits 0xC 0 d pp rsv : BitVec 16) &&& 0x0FF0 = 0x0C00
  cases d <;> cases pp <;> revert rsv <;> decide +kernel

theorem evWrongEndpoint8F (tok : BitVec 4) (epLo : BitVec 3) (d : Dir) (pp : Slot) (rsv : BitVec 2) : Statement (.evWrongEndpoint8F tok epLo d pp rsv) := by
  show ((0 : BitVec 4) ++ eventBits tok ((1 : BitVec 1) ++ epLo) d pp rsv : BitVec 16) &&& 0x0080 = 0x0080
  cases d <;> cases pp <;> revert tok epLo rsv <;> decide +kernel

theorem evWrongEndpoint47 (tok : BitVec 4) (epLo : BitVec 2) (d : Dir) (pp : Slot) (rsv : BitVec 2) : Statement (.evWrongEndpoint47 tok epLo d pp rsv) := by
  show ((0 : BitVec 4) ++ eventBits tok ((1 : BitVec 2) ++ epLo) d pp rsv : BitVec 16) &&& 0x00C0 = 0x0040
  cases d <;> cases pp <;> revert tok epLo rsv <;> decide +kernel

theorem evWrongEndpoint23 (tok : BitVec 4) (epLo : BitVec 1) (d : Dir) (pp : Slot) (rsv : BitVec 2) : Statement (.evWrongEndpoint23 tok epLo d pp rsv) := by
  show ((0 : BitVec 4) ++ eventBits tok ((1 : BitVec 3) ++ epLo) d pp rsv : BitVec 16) &&& 0x00E0 = 0x0020
  cases d <;> cases pp <;> revert tok epLo rsv <;> decide +kernel

theorem evWrongEndpoint1 (tok : BitVec 4) (d : Dir) (pp : Slot) (rsv : BitVec 2) : Statement (.evWrongEndpoint1 tok d pp rsv) := by
  show ((0 : BitVec 4) ++ eventBits tok 1 d pp rsv : BitVec 16) &&& 0x00F0 = 0x0010
  cases d <;> cases pp <;> revert tok rsv <;> decide +kernel

theorem send (buf : Addr) (len req : Len) (cb : Option CallbackId) (ctx : Addr) : Statement (.send buf len req cb ctx) := trivial

theorem sendSmall (src : Addr) (len : Len) : Statement (.sendSmall src len) := trivial

theorem receive (buf : Addr) (max : Len) (cb : Option CallbackId) (ctx : Addr) : Statement (.receive buf max cb ctx) := trivial

theorem stall (ep : BitVec 4) : Statement (.stall ep) := trivial

theorem query : Statement (.query) := trivial

theorem beginTx (buf : Addr) (len req : Len) (cb : Option CallbackId) (ctx : Addr) : Statement (.beginTx buf len req cb ctx) := trivial

theorem beginRx (buf : Addr) (max : Len) (cb : Option CallbackId) (ctx : Addr) : Statement (.beginRx buf max cb ctx) := trivial

theorem envSetup (pp : Option Slot) (b : SetupData) : Statement (.envSetup pp b) := trivial

theorem envIn (pp : Option Slot) : Statement (.envIn pp) := trivial

theorem envOut (pp : Option Slot) (pid : Option Toggle) (n : BitVec 16) (bytes : Option (List Byte)) : Statement (.envOut pp pid n bytes) := trivial

theorem envDiag (tok : DiagTok) (d : Dir) (pp : Option Slot) (release : Option Bool) : Statement (.envDiag tok d pp release) := trivial

theorem reset : Statement (.reset) := trivial

theorem busreset : Statement (.busreset) := trivial

end Sys2Proof.Laws.TableMatch
end

