-- ==== Sys2Proof/Laws/Requests.lean ====
section
/-! SUPPORT. What the API, the request handlers and the SETUP step can do, each said once. -/

namespace Sys2Proof.Machine

open Sys2Proof

/-- The cancellation of a SETUP leaves the RX descriptors alone. -/
theorem requestState_noneOwned_rx_iff (r s) : noneOwned .rx (requestState r s) ↔ noneOwned .rx s := by
  constructor
  · intro h
    have h1 : (bd0 .tx .odd).val ≠ (bd0 .rx .even).val := by decide
    have h2 : (bd0 .tx .even).val ≠ (bd0 .rx .even).val := by decide
    have h3 : (bd0 .tx .odd).val ≠ (bd0 .rx .odd).val := by decide
    have h4 : (bd0 .tx .even).val ≠ (bd0 .rx .odd).val := by decide
    obtain ⟨ha, hb⟩ := h
    constructor
    · simpa [requestState, State.bdAt, Vector.getElem_set_ne, h1, h2] using ha
    · simpa [requestState, State.bdAt, Vector.getElem_set_ne, h3, h4] using hb
  · exact requestState_noneOwned_rx r s

/-- `DescriptorLookup` is the first matching entry. -/
theorem lookupDesc_eq_find (t : List DescEntry) (v i : BitVec 16) : lookupDesc t v i = (t.find? fun e => e.value == v && e.index == i).map fun e => (e.addr, e.len) := by
  induction t with
  | nil => rfl
  | cons e r ih =>
    simp only [lookupDesc, List.find?]
    split
    · rename_i h; simp [h]
    · rename_i h
      have : (e.value == v && e.index == i) = false := by
        simpa using h
      simp [this, ih]

/-- `ClassHandler` is the first matching entry. -/
theorem lookupClass_eq_find (t : List ClassEntry) (r') : lookupClass t r' = t.find? fun e => e.req == r' := by
  induction t with
  | nil => rfl
  | cons e r ih =>
    simp only [lookupClass, List.find?]
    split
    · rename_i h; simp [h]
    · rename_i h
      have : (e.req == r') = false := by simpa using h
      simp [this, ih]

/-- Reading a SETUP packet that memory holds. -/
theorem memReadSetup_of_bytes (s : State) (a : Addr) (b : SetupData) (h : a.toNat + 8 ≤ memSize) (hb : b.toList = memGetList s.mem a.toNat 8) : memReadSetup a s = .ok b := by
  unfold memReadSetup
  rw [if_pos h]
  simp [memGetList, SetupData.toList] at hb
  cases b; simp at hb ⊢; simp [hb]

/-- What a request handler changes apart from arming: the device state, the pending address, the configuration, the stall
indication, records that are no callback, and bytes of the next scratch buffer (44_std_requests.md, 45_api.md R314). -/
structure Quiet (s t : State) : Prop where
  stage : t.stage = s.stage
  req : t.req = s.req
  hwAddr : t.hwAddr = s.hwAddr
  rx : t.rx = s.rx
  tx : t.tx = s.tx
  bd : t.bd = s.bd
  memWf : s.params.wf = true → Memory.wf s.mem = true → Memory.wf t.mem = true
  mem : 2 ≤ s.params.bufSize.toNat → ∀ c, (c < (s.scratch s.tx.pingpong).toNat ∨ (s.scratch s.tx.pingpong).toNat + s.params.bufSize.toNat ≤ c) → memGet t.mem c = memGet s.mem c
  out : ∃ l, t.out = s.out ++ l ∧ ∀ e ∈ l, e.isCb = false
  bad : t.bad = s.bad
  params : t.params = s.params
  inputs : t.inputs = s.inputs
  fresh : t.fresh = s.fresh

theorem Quiet.refl (s) : Quiet s s := ⟨rfl, rfl, rfl, rfl, rfl, rfl, fun _ h => h, fun _ _ _ => rfl, ⟨[], by simp, by simp⟩, rfl, rfl, rfl, rfl⟩

theorem Quiet.trans {s t u} (h : Quiet s t) (k : Quiet t u) : Quiet s u := by
  refine ⟨k.stage.trans h.stage, k.req.trans h.req, k.hwAddr.trans h.hwAddr, k.rx.trans h.rx, k.tx.trans h.tx, k.bd.trans h.bd, ?_, ?_, ?_, k.bad.trans h.bad, k.params.trans h.params, k.inputs.trans h.inputs, k.fresh.trans h.fresh⟩
  · intro hp hm; exact k.memWf (by rw [h.params]; exact hp) (h.memWf hp hm)
  · intro hb c hc
    have e : (t.scratch t.tx.pingpong) = (s.scratch s.tx.pingpong) := by rw [h.tx]; unfold State.scratch; rw [h.params]
    rw [k.mem (by rw [h.params]; exact hb) c (by rw [e, h.params]; exact hc), h.mem hb c hc]
  · obtain ⟨l, h1, h2⟩ := h.out
    obtain ⟨m, h3, h4⟩ := k.out
    refine ⟨l ++ m, by rw [h3, h1, List.append_assoc], ?_⟩
    intro e he
    rcases List.mem_append.1 he with he | he
    · exact h2 e he
    · exact h4 e he

/-- A `stall` call is quiet. -/
theorem quiet_apiStall {ep s t} (h : apiStall ep s = .ok t) : Quiet s t := by
  unfold apiStall at h
  split at h
  · cases h
    exact ⟨rfl, rfl, rfl, rfl, rfl, rfl, fun _ h => h, fun _ _ _ => rfl, ⟨[.stall], rfl, by simp [TraceRec.isCb]⟩, rfl, rfl, rfl, rfl⟩
  · cases h

/-- The `stall` calls of a class handler are quiet. -/
theorem quiet_callStalls {l : List (BitVec 4)} {s t} (h : callStalls l s = .ok t) : Quiet s t := by
  induction l generalizing s with
  | nil => cases h; exact Quiet.refl _
  | cons a r ih =>
    unfold callStalls at h
    split at h
    · cases h
    · rename_i w hw
      exact (quiet_apiStall hw).trans (ih h)

/-- A store into the scratch buffer is quiet. -/
theorem quiet_memWrite {bytes s t} (h : memWrite (s.scratch s.tx.pingpong) bytes s = .ok t) (hl : bytes.length ≤ s.params.bufSize.toNat ∨ bytes.length ≤ 2) : Quiet s t := by
  unfold memWrite at h
  split at h
  · rename_i hs
    cases h
    refine ⟨rfl, rfl, rfl, rfl, rfl, rfl, ?_, ?_, ⟨[], (List.append_nil _).symm, by simp⟩, rfl, rfl, rfl, rfl⟩
    · intro _ hm; exact memPutList_wf _ _ _ hm hs
    · intro hb c hc
      refine memGet_memPutList_outside _ _ _ _ ?_
      omega
  · cases h

/-- Everything `send` can answer. -/
theorem apiSend_ok {buf len req cb ctx s u l} (h : apiSend buf len req cb ctx s = .ok (u, l)) : noneOwned .tx s ∧ u = armedTx buf len req cb ctx s ∧ l = minLen len req := beginTx_ok h

/-- Everything `send_small` can answer: the capacity error, or a queued copy. -/
theorem apiSendSmall_ok {src len s u l} (h : apiSendSmall src len s = .ok (u, l)) : (u = s ∧ l = none ∧ s.params.bufSize.toNat < len.toNat) ∨ ∃ q, Quiet s q ∧ noneOwned .tx q ∧ u = armedTx (s.scratch s.tx.pingpong) len (smallRequested len s) none 0 q ∧ l = some (minLen len (smallRequested len s)) := by
  unfold apiSendSmall at h
  split at h
  · cases h; exact .inl ⟨rfl, rfl, by assumption⟩
  · rename_i hlen
    right
    split at h
    · cases h
    · rename_i b hb
      have hbl : b.length = len.toNat := by
        unfold memRead at hb; split at hb
        · cases hb; simp
        · cases hb
      dsimp only at h
      split at h
      · cases h
      · rename_i t ht
        have q := quiet_memWrite (s := s) ht (.inl (by omega))
        split at h
        · cases h
        · rename_i v l' hv
          cases h
          obtain ⟨h1, h2, h3⟩ := apiSend_ok hv
          exact ⟨t, q, h1, h2, by rw [h3]⟩

/-- A supplied handler's calls `stall(0)`. -/
theorem callStalls_of_zero {l : List (BitVec 4)} (s : State) (h : ∀ ep ∈ l, ep = 0) : callStalls l s = .ok (stallsCalled l s) := by
  induction l generalizing s with
  | nil => simp [callStalls, stallsCalled]
  | cons a r ih =>
    obtain ⟨rfl, hr⟩ := List.forall_mem_cons.1 h
    simp only [callStalls, apiStall, if_true, ih _ hr]
    simp [stallsCalled, State.setEp0Stall, State.emit]

/-- A supplied handler's calls of `stall`, one of another endpoint. -/
theorem callStalls_of_other {l : List (BitVec 4)} (s : State) (h : ∃ ep ∈ l, ep ≠ 0) : callStalls l s = .error (.refused .endpointNot0) := by
  induction l generalizing s with
  | nil => simp at h
  | cons a r ih =>
    by_cases ha : a = 0
    · have hr : ∃ ep ∈ r, ep ≠ 0 := by simpa [ha] using h
      simp only [callStalls, apiStall, ha, if_true, ih _ hr]
    · simp only [callStalls, apiStall, ha, if_false]

/-- The calls of `stall` leave the ownership of descriptors alone. -/
@[simp] theorem stallsCalled_noneOwned (d : Dir) (l : List (BitVec 4)) (s : State) : noneOwned d (stallsCalled l s) ↔ noneOwned d s := Iff.rfl

/-- `send_small` above the capacity (45_api.md R314). -/
theorem apiSendSmall_of_capacity (src : Addr) {len : Len} {s : State} (h : s.params.bufSize.toNat < len.toNat) :
    apiSendSmall src len s = .ok (s, none) := if_pos h

/-- `send_small` with a copy range past the top of `MEM` (45_api.md R314, 20_memory.md R71). -/
theorem apiSendSmall_past_top {src : Addr} {len : Len} {s : State} (h : len.toNat ≤ s.params.bufSize.toNat)
    (ht : memSize < src.toNat + len.toNat ∨ memSize < (s.scratch s.tx.pingpong).toNat + len.toNat) :
    apiSendSmall src len s = .error (.fault .r71) := by
  unfold apiSendSmall
  rw [if_neg (Nat.not_lt.2 h)]
  by_cases hs : src.toNat + len.toNat ≤ memSize
  · have hd : ¬ (s.scratch s.tx.pingpong).toNat + len.toNat ≤ memSize := by omega
    simp [memRead, hs, memWrite, State.pipe, hd]
  · simp only [memRead, hs, if_false]

/-- `send_small` that copies and queues (45_api.md R314). -/
theorem apiSendSmall_of_noneOwned {src : Addr} {len : Len} {s : State} (h : len.toNat ≤ s.params.bufSize.toNat)
    (hs : src.toNat + len.toNat ≤ memSize) (hd : (s.scratch s.tx.pingpong).toNat + len.toNat ≤ memSize) (hn : noneOwned .tx s) :
    apiSendSmall src len s = .ok (armedTx (s.scratch s.tx.pingpong) len (smallRequested len s) none 0
      { s with mem := memPutList s.mem (s.scratch s.tx.pingpong).toNat (memGetList s.mem src.toNat len.toNat) },
      some (minLen len (smallRequested len s))) := by
  have hn' : noneOwned .tx (s.setMem (memPutList s.mem (s.scratch s.tx.pingpong).toNat (memGetList s.mem src.toNat len.toNat))) := hn
  have hb := beginTx_of_noneOwned (s.scratch s.tx.pingpong) len (smallRequested len s) none 0 _ hn'
  unfold apiSendSmall
  rw [if_neg (Nat.not_lt.2 h)]
  have hl : (memGetList s.mem src.toNat len.toNat).length = len.toNat := by simp
  simp only [memRead, memWrite, State.pipe, hs, hl, hd, if_true, apiSend]
  rw [hb]
  rfl

/-- Everything `SendReply` can answer. -/
theorem sendReply_ok {r bytes s u o} (h : sendReply r bytes s = .ok (u, o)) (hl : bytes.length ≤ 2) : ∃ q, Quiet s q ∧ noneOwned .tx q ∧ u = armedTx (s.scratch s.tx.pingpong) (BitVec.ofNat 32 bytes.length) (reqRequested r) none 0 q ∧ o = .dataQueued := by
  unfold sendReply at h
  dsimp only at h
  split at h
  · cases h
  · rename_i t ht
    have q := quiet_memWrite (s := s) ht (.inr hl)
    split at h
    · cases h
    · rename_i v l' hv
      cases h
      obtain ⟨h1, h2, h3⟩ := apiSend_ok hv
      exact ⟨t, q, h1, h2, rfl⟩

/-- What a request handler answers: a quiet change, and after it at most one armed transfer (44_std_requests.md R270, R290). -/
def Handled (s t : State) (o : ReqOutcome) : Prop :=
  ∃ q, Quiet s q ∧ ((t = q ∧ o ≠ .dataQueued) ∨ (o = .dataQueued ∧ ((∃ buf len req cb ctx, noneOwned .tx q ∧ t = armedTx buf len req cb ctx q) ∨ (∃ buf max cb ctx, noneOwned .rx q ∧ t = armedRx buf max cb ctx q))))

theorem handled_of_quiet {s q : State} {o} (h : Quiet s q) (ho : o ≠ .dataQueued) : Handled s q o := ⟨q, h, .inl ⟨rfl, ho⟩⟩

theorem handled_sendReply {r bytes s u o} (h : sendReply r bytes s = .ok (u, o)) (hl : bytes.length ≤ 2) : Handled s u o := by
  obtain ⟨q, a, b, c, d⟩ := sendReply_ok h hl
  exact ⟨q, a, .inr ⟨d, .inl ⟨_, _, _, _, _, b, c⟩⟩⟩

theorem handled_classHandler {r s u o} (h : classHandler r s = .ok (u, o)) : Handled s u o := by
  unfold classHandler at h
  split at h
  · cases h; exact handled_of_quiet (Quiet.refl _) (by simp)
  · rename_i e he
    split at h
    · cases h
    · rename_i t ht
      have q1 := quiet_callStalls ht
      split at h
      · cases h
      · rename_i v qd hv
        cases h
        unfold callTransfer at hv
        split at hv
        · cases hv; exact handled_of_quiet q1 (by simp; split <;> simp)
        · split at hv
          · cases hv
          · rename_i w l hw
            cases hv
            obtain ⟨h1, h2, h3⟩ := apiSend_ok hw
            exact ⟨_, q1, .inr ⟨by simp, .inl ⟨_, _, _, _, _, h1, h2⟩⟩⟩
        · split at hv
          · cases hv
          · rename_i w l hw
            cases hv
            rcases apiSendSmall_ok hw with ⟨h1, h2, -⟩ | ⟨q, h1, h2, h3, h4⟩
            · subst h1 h2; exact handled_of_quiet q1 (by simp; split <;> simp)
            · subst h4
              exact ⟨q, q1.trans h1, .inr ⟨by simp, .inl ⟨_, _, _, _, _, h2, h3⟩⟩⟩
        · split at hv
          · cases hv
          · rename_i w l hw
            cases hv
            obtain ⟨h1, h2, h3⟩ := beginRx_ok hw
            exact ⟨_, q1, .inr ⟨by simp, .inr ⟨_, _, _, _, h1, h2⟩⟩⟩

theorem handled_setAddress {r s u o} (h : setAddress r s = .ok (u, o)) : Handled s u o := by
  cases h
  exact handled_of_quiet ⟨rfl, rfl, rfl, rfl, rfl, rfl, fun _ h => h, fun _ _ _ => rfl, ⟨[], (List.append_nil _).symm, by simp⟩, rfl, rfl, rfl, rfl⟩ (by simp)

theorem handled_setConfiguration {r s u o} (h : setConfiguration r s = .ok (u, o)) : Handled s u o := by
  cases h
  exact handled_of_quiet ⟨rfl, rfl, rfl, rfl, rfl, rfl, fun _ h => h, fun _ _ _ => rfl, ⟨[], (List.append_nil _).symm, by simp⟩, rfl, rfl, rfl, rfl⟩ (by simp)

theorem handled_getDescriptor {r s u o} (h : getDescriptor r s = .ok (u, o)) : Handled s u o := by
  unfold getDescriptor at h
  split at h
  · cases h; exact handled_of_quiet (Quiet.refl _) (by simp)
  · split at h
    · cases h
    · rename_i t l ht
      cases h
      obtain ⟨h1, h2, h3⟩ := apiSend_ok ht
      exact ⟨s, Quiet.refl _, .inr ⟨rfl, .inl ⟨_, _, _, _, _, h1, h2⟩⟩⟩

theorem handled_unchanged {s u o} {o' : ReqOutcome} (ho : o' ≠ .dataQueued) (h : (.ok (s, o') : Res (State × ReqOutcome)) = .ok (u, o)) : Handled s u o := by
  cases h; exact handled_of_quiet (Quiet.refl _) ho

/-- Everything the request handler can answer (44_std_requests.md R270). -/
theorem handled_handle {r s u o} (h : handle r s = .ok (u, o)) : Handled s u o := by
  unfold handle at h
  split_ifs at h
  · exact handled_sendReply h (by simp)
  · exact handled_unchanged (by simp) h
  · exact handled_unchanged (by simp) h
  · exact handled_setAddress h
  · exact handled_getDescriptor h
  · exact handled_sendReply h (by simp)
  · exact handled_setConfiguration h
  · exact handled_sendReply h (by simp)
  · exact handled_unchanged (by simp) h
  · exact handled_unchanged (by simp) h
  · exact handled_classHandler h
  · exact handled_unchanged (by simp) h

/-- Everything the SETUP step can answer (43_control_fsm.md R236). -/
theorem runRequest_ok {r s u o} (h : runRequest handle r s = .ok (u, o)) : ∃ t, Handled (requestState r s) t o ∧
   ((o = .noData ∧ r.dir = 0 ∧ noneOwned .tx t ∧ u = statusInState t) ∨ (o = .noData ∧ r.dir ≠ 0 ∧ noneOwned .rx t ∧ u = statusOutState t) ∨ (o = .dataQueued ∧ u = { t with stage := .data}) ∨ (o = .error ∧ noneOwned .rx t ∧ u = protocolErrorState t)) := by
  unfold runRequest at h
  rw [openRequest_eq] at h
  split at h
  · cases h
  · rename_i t o' ht
    split at h
    · cases h
    · rename_i w hw
      cases h
      refine ⟨t, handled_handle ht, ?_⟩
      cases o with
      | noData =>
        by_cases hd : r.dir = 0
        · simp only [continueRequest, oppositeDir, if_pos hd] at hw
          exact .inl ⟨rfl, hd, enterStatus_tx_ok hw⟩
        · simp only [continueRequest, oppositeDir, if_neg hd] at hw
          exact .inr (.inl ⟨rfl, hd, enterStatus_rx_ok hw⟩)
      | dataQueued =>
        cases hw; exact .inr (.inr (.inl ⟨rfl, rfl⟩))
      | error => exact .inr (.inr (.inr ⟨rfl, protocolError_ok hw⟩))

/-- Everything `OnSetup` can answer. -/
theorem onSetup_ok {i s u} (h : onSetup i s = .ok u) : ∃ b o, memReadSetup (s.bdAt i).addr s = .ok b ∧ runRequest handle (decodeReq b) s = .ok (u, o) := by
  unfold onSetup at h
  split at h
  · cases h
  · rename_i b hb
    unfold dropResult at h
    split at h
    · cases h
    · rename_i t o ho
      cases h
      exact ⟨b, o, hb, ho⟩

end Sys2Proof.Machine
end

