-- ==== Sys2Proof/Laws/Steps.lean ====
section
/-! SUPPORT. What one step of `exec` can do, said once. -/

namespace Sys2Proof.Machine

open Sys2Proof

/-- A request whose handler answers `NoData`, with the status stage's direction free (43_control_fsm.md R238). -/
theorem requestStep_of_noData {h : ControlReq → State → Res (State × ReqOutcome)} {r : ControlReq} {s t : State}
    (hh : h r (requestState r s) = .ok (t, .noData)) (hn : if r.dir = 0 then noneOwned .tx t else noneOwned .rx t) :
    requestStep h r s = .next (returned (.outcome .noData) (noDataState r t)) := by
  by_cases hd : r.dir = 0
  · rw [if_pos hd] at hn
    simp [requestStep, runRequest, openRequest_eq, hh, continueRequest, oppositeDir, hd, enterStatus_tx_of_noneOwned _ hn,
      Except.map, noDataState]
  · rw [if_neg hd] at hn
    simp only [requestStep, runRequest, openRequest_eq, hh, continueRequest, oppositeDir, if_neg hd,
      enterStatus_rx_of_noneOwned _ hn, Except.map, noDataState, finish_ok]

/-- A request with no data stage whose status OUT finds an RX descriptor owned (42_rx_engine.md R201). -/
theorem requestStep_of_noData_owned {h : ControlReq → State → Res (State × ReqOutcome)} {r : ControlReq} {s t : State}
    (hh : h r (requestState r s) = .ok (t, .noData)) (hd : r.dir ≠ 0) (hn : ¬ noneOwned .rx t) :
    requestStep h r s = .next (marked (.fault .r201) s) := by
  simp only [requestStep, runRequest, openRequest_eq, hh, continueRequest, oppositeDir, if_neg hd,
    enterStatus_rx_of_owned _ hn, Except.map, finish_error]

/-- A request whose handler answers `DataQueued` (43_control_fsm.md R236). -/
theorem requestStep_of_dataQueued {h : ControlReq → State → Res (State × ReqOutcome)} {r : ControlReq} {s t : State}
    (hh : h r (requestState r s) = .ok (t, .dataQueued)) :
    requestStep h r s = .next (returned (.outcome .dataQueued) { t with stage := .data }) := by
  simp only [requestStep, runRequest, openRequest_eq, hh, continueRequest, Except.map, finish_ok, State.setStage]

/-- A request whose handler answers `Error` (43_control_fsm.md R240). -/
theorem requestStep_of_error {h : ControlReq → State → Res (State × ReqOutcome)} {r : ControlReq} {s t : State}
    (hh : h r (requestState r s) = .ok (t, .error)) :
    (noneOwned .rx t → requestStep h r s = .next (returned (.outcome .error) (protocolErrorState t)))
      ∧ (¬ noneOwned .rx t → requestStep h r s = .next (marked (.fault .r201) s)) := by
  constructor <;> intro hn
  · simp only [requestStep, runRequest, openRequest_eq, hh, continueRequest, protocolError_of_noneOwned _ hn, Except.map,
      finish_ok]
  · simp only [requestStep, runRequest, openRequest_eq, hh, continueRequest, protocolError_of_owned _ hn, Except.map,
      finish_error]

/-- A request whose handler ends in a mark (60_exceptions.md R375). -/
theorem requestStep_of_mark {h : ControlReq → State → Res (State × ReqOutcome)} {r : ControlReq} {s : State} {m : BadMark}
    (hh : h r (requestState r s) = .error m) : requestStep h r s = .next (marked m s) := by
  simp only [requestStep, runRequest, openRequest_eq, hh, Except.map, finish_error]

theorem requestStep_congr {h : ControlReq → State → Res (State × ReqOutcome)} {r r' : ControlReq} (s : State) (e : r' = r) (hh : h r = handle r) :
   requestStep h r' s = requestStep handle r s := by
  subst e; simp only [requestStep, runRequest, hh]

/-- A SETUP row runs what `Handle` runs for its request. -/
theorem exec_row {i r} (s : State) (h : i.req? = some r) : exec i s = requestStep handle r s := by
  have unrec : ∀ (t : BitVec 2) (c : BitVec 8) (f : ReqFields), t = 0 → (c = 2 ∨ c = 4 ∨ c = 7 ∨ 12 ≤ c.toNat) → unrecognised (f.toReq t c) = handle (f.toReq t c) := by
    intro t c f ht hc
    have : ¬ c = 0 ∧ ¬ c = 1 ∧ ¬ c = 3 ∧ ¬ c = 5 ∧ ¬ c = 6 ∧ ¬ c = 8 ∧ ¬ c = 9 ∧ ¬ c = 10 ∧ ¬ c = 11 := by
      revert c; decide +kernel
    funext s
    simp only [handle, ReqFields.toReq, ht, this, if_true, if_false]
  cases i
  case stdUnrecognised0C0F lo f => cases h; exact requestStep_congr s rfl (unrec _ _ f rfl (by clear unrec; revert lo; decide +kernel))
  case stdUnrecognised101F lo f => cases h; exact requestStep_congr s rfl (unrec _ _ f rfl (by clear unrec; revert lo; decide +kernel))
  case stdUnrecognised203F lo f => cases h; exact requestStep_congr s rfl (unrec _ _ f rfl (by clear unrec; revert lo; decide +kernel))
  case stdUnrecognised407F lo f => cases h; exact requestStep_congr s rfl (unrec _ _ f rfl (by clear unrec; revert lo; decide +kernel))
  case stdUnrecognised80FF lo f => cases h; exact requestStep_congr s rfl (unrec _ _ f rfl (by clear unrec; revert lo; decide +kernel))
  all_goals first | (cases h; exact requestStep_congr s rfl rfl) | cases h

/-- The next states a step can end in, one case per kind of step (00_scope.md R13): the mark alone, nothing, a reset, a SETUP
row, the three completion events, an API call, an environment step with its event. -/
inductive Ran : Instr → State → State → Prop where
  | fails (i s m) : Ran i s (marked m s)
  | same (i s v) : (v = .noStep ∨ i.req? = none ∧ ∀ pp rsv, i ≠ .evSetupRx pp rsv) → Ran i s (returned v s)
  | rst (s) : Ran .reset s { State.powerOn s.params with bad := s.bad, inputs := s.inputs, fresh := s.fresh }
  | bus (s) : Ran .busreset s (returned .nothing (setupArmed (busResetFields s)))
  | row (i s r t o) : i.req? = some r → runRequest handle r s = .ok (t, o) → Ran i s (returned (.outcome o) t)
  | evS (s t pp rsv) : (s.bdAt (bd0 .rx pp)).own = false → onSetup (bd0 .rx pp) s = .ok t → Ran (.evSetupRx pp rsv) s (returned .nothing t)
  | evI (s t pp rsv) : (s.bdAt (bd0 .tx pp)).own = false → onData .tx (bd0 .tx pp) s = .ok t → Ran (.evInTx pp rsv) s (returned .nothing t)
  | evO (s t pp rsv) : (s.bdAt (bd0 .rx pp)).own = false → onData .rx (bd0 .rx pp) s = .ok t → Ran (.evOutRx pp rsv) s (returned .nothing t)
  | tx (i s buf len req cb ctx v) : noneOwned .tx s → (i = .send buf len req cb ctx ∨ i = .beginTx buf len req cb ctx) → Ran i s (returned v (armedTx buf len req cb ctx s))
  | rx (i s buf max cb ctx v) : noneOwned .rx s → (i = .receive buf max cb ctx ∨ i = .beginRx buf max cb ctx) → Ran i s (returned v (armedRx buf max cb ctx s))
  | small (s q src len v a l r) : Quiet s q → noneOwned .tx q → Ran (.sendSmall src len) s (returned v (armedTx a l r none 0 q))
  | stall (s) : Ran (.stall 0) s (returned .nothing { s with ep0Stall := true, out := s.out ++ [.stall] })
  | envS (s pp x b t) : (∀ y, pp = some y → x = y) → (s.bdAt (bd0 .rx x)).own = true → (s.bdAt (bd0 .rx x)).addr.toNat + 8 ≤ memSize → onSetup (bd0 .rx x) (setupLanded x b s) = .ok t → Ran (.envSetup pp b) s (returned .nothing t)
  | envI (s pp x t) : (s.bdAt (bd0 .tx x)).own = true → onData .tx (bd0 .tx x) (inTaken x s) = .ok t → Ran (.envIn pp) s (returned .nothing t)
  | envO (s pp pid n bytes x t l k) : (∀ y, pp = some y → x = y) → (s.bdAt (bd0 .rx x)).own = true → l.length = n.toNat → n.toNat ≤ (s.bdAt (bd0 .rx x)).bc.toNat → (s.bdAt (bd0 .rx x)).addr.toNat + n.toNat ≤ memSize → onData .rx (bd0 .rx x) (outLanded x l { s with fresh := k}) = .ok t → Ran (.envOut pp pid n bytes) s (returned .nothing t)
  | envD (s tok d pp rel x b k) : Ran (.envDiag tok d pp rel) s (returned .nothing (releaseDiag (bd0 d x) tok.code b { s with fresh := k }))

theorem ran_finishUnit {i s u} (r : Res State) (h : finishUnit s r = .next u) (k : ∀ t, r = .ok t → Ran i s (returned .nothing t)) : Ran i s u := by
  rcases r with m | t
  · rw [finishUnit_error] at h; cases h; exact .fails _ _ _
  · rw [finishUnit_ok] at h; cases h; exact k t rfl

theorem ran_finish {i s u} (r : Res (State × Ret)) (h : finish s r = .next u) (k : ∀ t v, r = .ok (t, v) → Ran i s (returned v t)) : Ran i s u := by
  rcases r with m | ⟨t, v⟩
  · rw [finish_error] at h; cases h; exact .fails _ _ _
  · rw [finish_ok] at h; cases h; exact k t v rfl

theorem ran_eventStep {i s u} (tok ep d pp rsv) (h : eventStep tok ep d pp rsv s = .next u) (hr : i.req? = none) (hne : ∀ pp rsv, i ≠ .evSetupRx pp rsv) (hi : ep ≠ 0 ∨ isDiag tok = true ∨ ¬ ((tok = tokSetup ∧ d = .rx) ∨ (tok = tokOut ∧ d = .rx) ∨ (tok = tokIn ∧ d = .tx))) : Ran i s u := by
  refine ran_finishUnit _ h ?_
  intro t ht
  unfold onEvent at ht
  rw [resolve_statWord] at ht
  dsimp only at ht
  split_ifs at ht with h1 h2 h3 h4 h5
  · cases ht; exact .same _ _ _ (.inr ⟨hr, hne⟩)
  all_goals simp_all

/-- What a step can do, said once: every next state of `exec` is one of the cases of `Ran`. -/
theorem ran_of_exec {i s u} (h : exec i s = .next u) : Ran i s u := by
  cases hr : i.req? with
  | some r =>
    rw [exec_row s hr] at h
    refine ran_finish _ h ?_
    intro t v ht
    cases hq : runRequest handle r s with
    | error m => rw [hq] at ht; cases ht
    | ok p => obtain ⟨p, o⟩ := p; rw [hq] at ht; cases ht; exact .row _ _ _ _ _ hr hq
  | none =>
  cases i
  case reset => cases h; exact .rst _
  case busreset =>
    refine ran_finishUnit _ h ?_
    intro t ht
    obtain ⟨_, rfl⟩ := armSetup_ok ht
    exact .bus _
  case query => cases h; exact .same _ _ _ (.inr ⟨rfl, by intro _ _ e; cases e⟩)
  case stall ep =>
    refine ran_finishUnit _ h ?_
    intro t ht
    unfold apiStall at ht
    split at ht
    · rename_i he; cases he; cases ht; exact .stall _
    · cases ht
  case evSetupRx pp rsv =>
    simp only [exec, execEvSetupRx, eventStep, onEvent_setup] at h
    refine ran_finishUnit _ h ?_
    intro t ht
    split at ht
    · cases ht
    · rename_i ho; exact .evS _ _ _ _ (by simpa using ho) ht
  case evOutRx pp rsv =>
    simp only [exec, execEvOutRx, eventStep, onEvent_out] at h
    refine ran_finishUnit _ h ?_
    intro t ht
    split at ht
    · cases ht
    · rename_i ho; exact .evO _ _ _ _ (by simpa using ho) ht
  case evInTx pp rsv =>
    simp only [exec, execEvInTx, eventStep, onEvent_in] at h
    refine ran_finishUnit _ h ?_
    intro t ht
    split at ht
    · cases ht
    · rename_i ho; exact .evI _ _ _ _ (by simpa using ho) ht
  case send buf len req cb ctx =>
    refine ran_finish _ h ?_
    intro t v ht
    cases hq : apiSend buf len req cb ctx s with
    | error m => rw [hq] at ht; cases ht
    | ok p => obtain ⟨p, o⟩ := p; rw [hq] at ht; cases ht; obtain ⟨a, b, c⟩ := beginTx_ok hq; subst b; exact .tx _ _ _ _ _ _ _ _ a (.inl rfl)
  case beginTx buf len req cb ctx =>
    refine ran_finish _ h ?_
    intro t v ht
    cases hq : beginTx buf len req cb ctx s with
    | error m => rw [hq] at ht; cases ht
    | ok p => obtain ⟨p, o⟩ := p; rw [hq] at ht; cases ht; obtain ⟨a, b, c⟩ := beginTx_ok hq; subst b; exact .tx _ _ _ _ _ _ _ _ a (.inr rfl)
  case receive buf max cb ctx =>
    refine ran_finish _ h ?_
    intro t v ht
    cases hq : apiReceive buf max cb ctx s with
    | error m => rw [hq] at ht; cases ht
    | ok p => obtain ⟨p, o⟩ := p; rw [hq] at ht; cases ht; obtain ⟨a, b, c⟩ := beginRx_ok hq; subst b; exact .rx _ _ _ _ _ _ _ a (.inl rfl)
  case beginRx buf max cb ctx =>
    refine ran_finish _ h ?_
    intro t v ht
    cases hq : beginRx buf max cb ctx s with
    | error m => rw [hq] at ht; cases ht
    | ok p => obtain ⟨p, o⟩ := p; rw [hq] at ht; cases ht; obtain ⟨a, b, c⟩ := beginRx_ok hq; subst b; exact .rx _ _ _ _ _ _ _ a (.inr rfl)
  case sendSmall src len =>
    refine ran_finish _ h ?_
    intro t v ht
    cases hq : apiSendSmall src len s with
    | error m => rw [hq] at ht; cases ht
    | ok p =>
      obtain ⟨p, o⟩ := p; rw [hq] at ht; cases ht
      rcases apiSendSmall_ok hq with ⟨rfl, rfl, -⟩ | ⟨q, h1, h2, h3, h4⟩
      · exact .same _ _ _ (.inr ⟨rfl, by intro _ _ e; cases e⟩)
      · rw [h3]; exact .small _ _ _ _ _ _ _ _ h1 h2
  case envSetup pp b =>
    simp only [exec, execEnvSetup] at h
    generalize hx : chooseSlot .rx pp s = x at h
    have hpp : ∀ y, pp = some y → x = y := by rintro y rfl; exact hx.symm
    split at h
    · rename_i ho
      refine ran_finishUnit _ h ?_
      intro t ht
      unfold completeSetup at ht
      dsimp only at ht
      split at ht
      · cases ht
      · rename_i w hw
        obtain ⟨hw1, rfl⟩ := (memWrite_ok_iff _ _ _ _).1 hw
        have ht : onEvent (statWord 0 .rx x 0) tokSetup (setupLanded x b s) = .ok t := ht
        rw [onEvent_setup] at ht
        split at ht
        · cases ht
        · exact .envS _ _ x _ _ hpp ho hw1 ht
    · cases h; exact .same _ _ _ (.inl rfl)
  case envIn pp =>
    simp only [exec, execEnvIn] at h
    generalize chooseSlot .tx pp s = x at h
    split at h
    · rename_i ho
      simp only [canIn, Bool.and_eq_true] at ho
      refine ran_finishUnit _ h ?_
      intro t ht
      unfold completeIn at ht
      dsimp only at ht
      split at ht
      · cases ht
      · rename_i l hl
        unfold memRead at hl
        split at hl
        · cases hl
          have : inTaken x s = (handBack (bd0 Dir.tx x) (s.bdAt (bd0 Dir.tx x)).bc tokIn
        (s.emit (TraceRec.hostIn (s.bdAt (bd0 Dir.tx x)).data01 (memGetList s.mem (BitVec.toNat (s.bdAt (bd0 Dir.tx x)).addr) (s.bdAt (bd0 Dir.tx x)).bc.toNat)))) := by
            simp [inTaken, handedBack, handBack, State.setBd, State.emit, State.bdAt]
          rw [← this] at ht
          have ht : onEvent (statWord 0 .tx x 0) tokIn (inTaken x s) = .ok t := ht
          rw [onEvent_in] at ht
          split at ht
          · cases ht
          · exact .envI _ _ x _ ho.1 ht
        · cases hl
    · cases h; exact .same _ _ _ (.inl rfl)
  case envOut pp pid n bytes =>
    simp only [exec, execEnvOut] at h
    generalize hx : chooseSlot .rx pp s = x at h
    have hpp : ∀ y, pp = some y → x = y := by rintro y rfl; exact hx.symm
    generalize outBytes n.toNat bytes s = l at h
    split at h
    · rename_i ho
      simp only [canOut, Bool.and_eq_true, decide_eq_true_eq, beq_iff_eq] at ho
      refine ran_finishUnit _ h ?_
      intro t ht
      unfold completeOut at ht
      dsimp only at ht
      split at ht
      · cases ht
      · rename_i w hw
        obtain ⟨hw1, rfl⟩ := (memWrite_ok_iff _ _ _ _).1 hw
        have ht : onEvent (statWord 0 .rx x 0) tokOut (outLanded x l (s.takeFresh (outFresh n.toNat bytes))) = .ok t := ht
        rw [onEvent_out] at ht
        split at ht
        · cases ht
        · refine .envO _ _ _ _ _ x _ l _ hpp ho.1.1.1.1 ho.2 ho.1.1.2 ?_ ht
          rw [← ho.2]; exact hw1
    · cases h; exact .same _ _ _ (.inl rfl)
  case envDiag tok d pp rel =>
    have h : finishUnit s (onEvent (statOf 0 d (chooseSlot d pp s)) tok.code (releaseDiag (bd0 d (chooseSlot d pp s)) tok.code (chooseRelease rel s) (s.takeFresh (releaseFresh rel)))) = .next u := h
    rw [onEvent_statOf, isDiag_code] at h
    cases h
    exact .envD _ _ _ _ _ _ _ _
  case evDiagTimeout d pp rsv => exact ran_eventStep _ _ _ _ _ h rfl (by intro _ _ e; cases e) (by cases d <;> decide)
  case evDiagAck d pp rsv => exact ran_eventStep _ _ _ _ _ h rfl (by intro _ _ e; cases e) (by cases d <;> decide)
  case evDiagNak d pp rsv => exact ran_eventStep _ _ _ _ _ h rfl (by intro _ _ e; cases e) (by cases d <;> decide)
  case evDiagStall d pp rsv => exact ran_eventStep _ _ _ _ _ h rfl (by intro _ _ e; cases e) (by cases d <;> decide)
  case evDiagDataerr d pp rsv => exact ran_eventStep _ _ _ _ _ h rfl (by intro _ _ e; cases e) (by cases d <;> decide)
  case evIllegalSetupTx pp rsv => exact ran_eventStep _ _ _ _ _ h rfl (by intro _ _ e; cases e) (by decide)
  case evIllegalOutTx pp rsv => exact ran_eventStep _ _ _ _ _ h rfl (by intro _ _ e; cases e) (by decide)
  case evIllegalInRx pp rsv => exact ran_eventStep _ _ _ _ _ h rfl (by intro _ _ e; cases e) (by decide)
  case evIllegalTok3 d pp rsv => exact ran_eventStep _ _ _ _ _ h rfl (by intro _ _ e; cases e) (by cases d <;> decide)
  case evIllegalTok47 lo d pp rsv => exact ran_eventStep _ _ _ _ _ h rfl (by intro _ _ e; cases e) (by clear hr h; revert lo; cases d <;> decide)
  case evIllegalTok8 d pp rsv => exact ran_eventStep _ _ _ _ _ h rfl (by intro _ _ e; cases e) (by cases d <;> decide)
  case evIllegalTokB d pp rsv => exact ran_eventStep _ _ _ _ _ h rfl (by intro _ _ e; cases e) (by cases d <;> decide)
  case evIllegalTokC d pp rsv => exact ran_eventStep _ _ _ _ _ h rfl (by intro _ _ e; cases e) (by cases d <;> decide)
  case evWrongEndpoint8F tok lo d pp rsv => exact ran_eventStep _ _ _ _ _ h rfl (by intro _ _ e; cases e) (.inl (by clear hr h; revert lo; decide))
  case evWrongEndpoint47 tok lo d pp rsv => exact ran_eventStep _ _ _ _ _ h rfl (by intro _ _ e; cases e) (.inl (by clear hr h; revert lo; decide))
  case evWrongEndpoint23 tok lo d pp rsv => exact ran_eventStep _ _ _ _ _ h rfl (by intro _ _ e; cases e) (.inl (by clear hr h; revert lo; decide))
  case evWrongEndpoint1 tok d pp rsv => exact ran_eventStep _ _ _ _ _ h rfl (by intro _ _ e; cases e) (.inl (by decide))
  all_goals cases hr

end Sys2Proof.Machine
end

