-- ==== Sys2Proof/Tests/Slice0.lean ====
section
/-! SUPPORT. The model's own tests: the WellFormed smoke test, the words of every row decoded, one-step tests whose expected
results are those of spec/95_test_vectors.md, and for every statement with hypotheses a state and operands that meet them. -/

namespace Sys2Proof.Tests

open Sys2Proof Sys2Proof.Machine

set_option Elab.async false

/-! ### Helpers -/

/-- The next state of an instruction; the state itself where there is none. -/
def after (i : Instr) (s : State) : State :=
  match exec i s with
  | .next t => t
  | .fault _ => s
  | .refused _ => s

/-- Whether an outcome is a next state with the property. -/
def nextIs (o : Host.Outcome State Fault Refusal) (p : State → Bool) : Bool :=
  match o with
  | .next t => p t
  | .fault _ => false
  | .refused _ => false

theorem nextIs_exists {o : Host.Outcome State Fault Refusal} {p : State → Bool} (h : nextIs o p = true) :
    ∃ t, o = .next t ∧ p t = true := by
  cases o with
  | next t => exact ⟨t, rfl, h⟩
  | fault r => cases h
  | refused r => cases h

/-- `Arm(i, a, n, t)` of 95_test_vectors.md: the descriptor is owned with these values. -/
def isArmed (s : State) (d : Dir) (pp : Slot) (a : Addr) (n : BitVec 10) (t : Toggle) : Bool :=
  let b := s.bdAt (bd0 d pp)
  b.own && b.addr == a && b.bc == n && b.data01 == t

/-- Whether `DEV` is that of the other state. -/
def sameDev (s t : State) : Bool :=
  s.devState == t.devState && s.devConfig == t.devConfig && s.pendingAddress == t.pendingAddress

/-- `S_P` of 95_test_vectors.md. -/
def sP : State := State.reset
/-- `S_R` of 95_test_vectors.md: after `busreset`. -/
def sR : State := after .busreset sP
/-- `S_R` with `BD[0]` handed back after a SETUP: the state a SETUP row runs in. -/
def sBack : State := handedBack (bd0 .rx .even) 8 tokSetup sR
/-- `sBack` with a descriptor table. -/
def sDesc : State :=
  { sBack with params := { sBack.params with lookup := [⟨0x0100, 0, 0x2000, 18⟩, ⟨0x0200, 0, 0x2100, 64⟩] } }
/-- The request of program P5. -/
def reqP5 : ControlReq := ⟨0, 2, 0, 0x01, 0, 0, 10⟩
/-- `sBack` with the supplied `ClassHandler` of program P5. -/
def sClass : State :=
  { sBack with params := { sBack.params with classTable := [⟨reqP5, [], some (.receive 0x5000 10 (some 4) 0), false⟩] } }
/-- The first chunk of vector T6 armed: `begin_tx(0x2000, 100, 200, 9, 7)`, `PIPE[TX].data01 = DATA1`. -/
def sTx : State := after (.beginTx 0x2000 100 200 (some 9) 7) sBack
/-- Vector T6 after its first IN: `BD[2]` handed back, stage `Data`. -/
def sTxMid : State := { handedBack (bd0 .tx .even) 64 tokIn sTx with stage := .data }
/-- Vector T6 after its second IN. -/
def sTxEnd : State := handedBack (bd0 .tx .odd) 36 tokIn (after (.evInTx .even 0) sTxMid)
/-- The first chunk of vector R3 armed: `begin_rx(0x5000, 100, 4, 0)`, `PIPE[RX].data01 = DATA1`. -/
def sRx : State := after (.beginRx 0x5000 100 (some 4) 0) (forceToggle .rx .data1 sBack)
/-- Vector R3 after its first OUT of 64 bytes: `BD[1]` handed back, stage `Data`. -/
def sRxMid : State := { handedBack (bd0 .rx .odd) 64 tokOut sRx with stage := .data }
/-- Vector R3 after its second OUT, of 36 bytes. -/
def sRxEnd : State := handedBack (bd0 .rx .even) 36 tokOut (after (.evOutRx .odd 0) sRxMid)
/-- Program P1 after its SETUP: the status IN of SET_ADDRESS(5) is armed in `BD[2]`. -/
def sAddr : State := after (.envSetup none ⟨0x00, 0x05, 0x05, 0x00, 0x00, 0x00, 0x00, 0x00⟩) sR
/-- `sAddr` with the status IN handed back. -/
def sAddrBack : State := handedBack (bd0 .tx .even) 0 tokIn sAddr
/-- A status OUT armed and handed back with no bytes. -/
def sStatusOut : State := handedBack (bd0 .rx .odd) 0 tokOut (after (.evInTx .odd 0) sTxEnd)

/-! ### WellFormed -/

/-- An OUT whose byte list does not have the written count is refused. -/
theorem test_wf_refuses_count : (Instr.envOut none none 3 (some [0xAA, 0xBB])).wellFormed = false := by decide
theorem test_wf_accepts_count : (Instr.envOut none none 2 (some [0xAA, 0xBB])).wellFormed = true := by decide

/-! ### Decoding: words written out from 30_encoding.md R101, R105, R108 to R111 -/

/-- The requests of spec/95_test_vectors.md and the corners of the unrecognised ranges. -/
theorem test_decode_setup_rows :
    decode [0x00, 0x80, 0x00, 0x00, 0x00, 0x00, 0x00, 0x02, 0x00] = .ok (.getStatus ⟨0, 1, 0, 0, 2⟩)
    ∧ decode [0x00, 0x02, 0x01, 0x00, 0x00, 0x00, 0x00, 0x00, 0x00] = .ok (.clearFeature ⟨2, 0, 0, 0, 0⟩)
    ∧ decode [0x00, 0x00, 0x02, 0x00, 0x00, 0x00, 0x00, 0x00, 0x00] = .ok (.stdUnrecognised02 ⟨0, 0, 0, 0, 0⟩)
    ∧ decode [0x00, 0x00, 0x03, 0x01, 0x00, 0x00, 0x00, 0x00, 0x00] = .ok (.setFeature ⟨0, 0, 1, 0, 0⟩)
    ∧ decode [0x00, 0x00, 0x04, 0x00, 0x00, 0x00, 0x00, 0x00, 0x00] = .ok (.stdUnrecognised04 ⟨0, 0, 0, 0, 0⟩)
    ∧ decode [0x00, 0x00, 0x05, 0x85, 0x00, 0x00, 0x00, 0x00, 0x00] = .ok (.setAddress ⟨0, 0, 0x85, 0, 0⟩)
    ∧ decode [0x00, 0x80, 0x06, 0x00, 0x03, 0x09, 0x04, 0xFF, 0x00] = .ok (.getDescriptor ⟨0, 1, 0x0300, 0x0409, 0xFF⟩)
    ∧ decode [0x00, 0x00, 0x07, 0x00, 0x01, 0x00, 0x00, 0x12, 0x00] = .ok (.stdUnrecognised07 ⟨0, 0, 0x0100, 0, 0x12⟩)
    ∧ decode [0x00, 0x80, 0x08, 0x00, 0x00, 0x00, 0x00, 0x01, 0x00] = .ok (.getConfiguration ⟨0, 1, 0, 0, 1⟩)
    ∧ decode [0x00, 0x00, 0x09, 0x01, 0x01, 0x00, 0x00, 0x00, 0x00] = .ok (.setConfiguration ⟨0, 0, 0x0101, 0, 0⟩) := by
  decide +kernel

theorem test_decode_setup_ranges :
    decode [0x00, 0x81, 0x0A, 0x00, 0x00, 0x00, 0x00, 0x01, 0x00] = .ok (.getInterface ⟨1, 1, 0, 0, 1⟩)
    ∧ decode [0x00, 0x01, 0x0B, 0x01, 0x00, 0x00, 0x00, 0x00, 0x00] = .ok (.setInterface ⟨1, 0, 1, 0, 0⟩)
    ∧ decode [0x00, 0x82, 0x0C, 0x00, 0x00, 0x81, 0x00, 0x02, 0x00] = .ok (.stdUnrecognised0C0F 0 ⟨2, 1, 0, 0x81, 2⟩)
    ∧ decode [0x00, 0x00, 0x1F, 0x00, 0x00, 0x00, 0x00, 0x00, 0x00] = .ok (.stdUnrecognised101F 0xF ⟨0, 0, 0, 0, 0⟩)
    ∧ decode [0x00, 0x00, 0x20, 0x00, 0x00, 0x00, 0x00, 0x00, 0x00] = .ok (.stdUnrecognised203F 0 ⟨0, 0, 0, 0, 0⟩)
    ∧ decode [0x00, 0x00, 0x7E, 0x00, 0x00, 0x00, 0x00, 0x00, 0x00] = .ok (.stdUnrecognised407F 0x3E ⟨0, 0, 0, 0, 0⟩)
    ∧ decode [0x00, 0x00, 0xFF, 0x00, 0x00, 0x00, 0x00, 0x00, 0x00] = .ok (.stdUnrecognised80FF 0x7F ⟨0, 0, 0, 0, 0⟩)
    ∧ decode [0x00, 0x21, 0x09, 0x00, 0x02, 0x00, 0x00, 0x08, 0x00] = .ok (.classRequest 0x09 ⟨1, 0, 0x0200, 0, 8⟩)
    ∧ decode [0x00, 0xC0, 0x01, 0x00, 0x00, 0x00, 0x00, 0x04, 0x00] = .ok (.vendorRequest 0x01 ⟨0, 1, 0, 0, 4⟩)
    ∧ decode [0x00, 0xFF, 0xFF, 0xFF, 0xFF, 0xFF, 0xFF, 0xFF, 0xFF]
        = .ok (.reservedTypeRequest 0xFF ⟨31, 1, 0xFFFF, 0xFFFF, 0xFFFF⟩) := by
  decide +kernel

theorem test_decode_event_rows :
    decode [0x01, 0x00, 0x0D] = .ok (.evSetupRx .even 0) ∧ decode [0x01, 0x04, 0x01] = .ok (.evOutRx .odd 0)
    ∧ decode [0x01, 0x0B, 0x09] = .ok (.evInTx .even 3) ∧ decode [0x01, 0x00, 0x00] = .ok (.evDiagTimeout .rx .even 0)
    ∧ decode [0x01, 0x04, 0x02] = .ok (.evDiagAck .rx .odd 0) ∧ decode [0x01, 0x08, 0x0A] = .ok (.evDiagNak .tx .even 0)
    ∧ decode [0x01, 0x08, 0x0E] = .ok (.evDiagStall .tx .even 0) ∧ decode [0x01, 0x0C, 0x0F] = .ok (.evDiagDataerr .tx .odd 0)
    ∧ decode [0x01, 0x08, 0x0D] = .ok (.evIllegalSetupTx .even 0) ∧ decode [0x01, 0x0C, 0x01] = .ok (.evIllegalOutTx .odd 0)
    ∧ decode [0x01, 0x00, 0x09] = .ok (.evIllegalInRx .even 0) ∧ decode [0x01, 0x00, 0x03] = .ok (.evIllegalTok3 .rx .even 0)
    ∧ decode [0x01, 0x0C, 0x06] = .ok (.evIllegalTok47 2 .tx .odd 0) ∧ decode [0x01, 0x00, 0x08] = .ok (.evIllegalTok8 .rx .even 0)
    ∧ decode [0x01, 0x04, 0x0B] = .ok (.evIllegalTokB .rx .odd 0) ∧ decode [0x01, 0x08, 0x0C] = .ok (.evIllegalTokC .tx .even 0)
    ∧ decode [0x01, 0xFC, 0x09] = .ok (.evWrongEndpoint8F 9 7 .tx .odd 0)
    ∧ decode [0x01, 0x50, 0x0D] = .ok (.evWrongEndpoint47 0xD 1 .rx .even 0)
    ∧ decode [0x01, 0x28, 0x03] = .ok (.evWrongEndpoint23 3 0 .tx .even 0)
    ∧ decode [0x01, 0x10, 0x09] = .ok (.evWrongEndpoint1 9 .rx .even 0) := by
  decide +kernel

/-- The records of the steps that have no encoding in the spec (the model's own, log 2). -/
theorem test_decode_calls :
    decode [0x10, 0x00, 0x40, 0, 0, 80, 0, 0, 0, 255, 0, 0, 0, 1, 9, 0, 0, 0, 0, 0, 0, 0] = .ok (.send 0x4000 80 255 (some 9) 0)
    ∧ decode [0x11, 0x00, 0x30, 0, 0, 65, 0, 0, 0] = .ok (.sendSmall 0x3000 65)
    ∧ decode [0x12, 0x00, 0x50, 0, 0, 10, 0, 0, 0, 1, 4, 0, 0, 0, 0, 0, 0, 0] = .ok (.receive 0x5000 10 (some 4) 0)
    ∧ decode [0x13, 0x01] = .ok (.stall 1) ∧ decode [0x14] = .ok .query
    ∧ decode [0x15, 0x00, 0x20, 0, 0, 2, 0, 0, 0, 64, 0, 0, 0, 0, 0, 0, 0, 0, 0, 0, 0, 0] = .ok (.beginTx 0x2000 2 64 none 0)
    ∧ decode [0x16, 0x00, 0x30, 0, 0, 100, 0, 0, 0, 1, 7, 0, 0, 0, 0, 0, 0, 0] = .ok (.beginRx 0x3000 100 (some 7) 0)
    ∧ decode [0x20, 0x00, 0x80, 0x06, 0, 1, 0, 0, 0x12, 0]
        = .ok (.envSetup (some .even) ⟨0x80, 0x06, 0x00, 0x01, 0x00, 0x00, 0x12, 0x00⟩)
    ∧ decode [0x21, 0x02] = .ok (.envIn none)
    ∧ decode [0x22, 0x01, 0x00, 0x03, 0x00, 0x01, 0xAA, 0xBB, 0xCC] = .ok (.envOut (some .odd) (some .data0) 3 (some [0xAA, 0xBB, 0xCC]))
    ∧ decode [0x23, 0x0A, 0x01, 0x02, 0x00] = .ok (.envDiag .nak .tx none (some false))
    ∧ decode [0x30] = .ok .reset ∧ decode [0x31] = .ok .busreset := by
  decide +kernel

/-- Records that are no row are refused by name. -/
theorem test_decode_refuses :
    decode [] = .error .emptyRecord ∧ decode [0x77] = .error (.unknownKind 0x77)
    ∧ decode [0x01, 0x00, 0x1D] = .error (.badOperands 0x01) ∧ decode [0x00, 0x80] = .error (.badOperands 0x00)
    ∧ decode [0x13, 0x10] = .error (.badOperands 0x13) := by
  decide +kernel

/-- Numbers of the opcode table, in its own numbering. -/
theorem test_table_words :
    decodeTableWord 16 0x0900 = some (.setConfiguration ⟨0, 0, 0, 0, 0⟩)
    ∧ decodeTableWord 16 0x0A81 = some (.getInterface ⟨1, 1, 0, 0, 0⟩)
    ∧ decodeTableWord 16 0x0D00 = some (.evSetupRx .even 0) ∧ decodeTableWord 12 0x100 = some (.evOutRx .even 0) := by
  decide +kernel

/-! ### Encodings (vectors X1 to X13) -/

theorem test_status_word : statOf 0 .tx .odd = 0x0C ∧ resolve 0x0C = ⟨0, .tx, .odd, 3⟩ ∧ resolve 0x0F = ⟨0, .tx, .odd, 3⟩ := by
  decide +kernel
/-- Example E1. -/
theorem test_index : bdIndex 0 .rx .odd = 1 ∧ bdIndex 0 .tx .even = 2 ∧ bdIndex 1 .rx .even = 4 ∧ bdIndex 15 .tx .odd = 63 := by
  decide +kernel
theorem test_armed_word : (armedBd 0x1000 8 .data1 Bd.powerOn).armedWord0 = 0x000800C8
    ∧ (armedBd 0x1000 64 .data0 Bd.powerOn).armedWord0 = 0x00400088 ∧ (armedBd 0x1000 0 .data1 Bd.powerOn).armedWord0 = 0x000000C8 := by
  decide +kernel
theorem test_completed_word : (sBack.bdAt 0).completedWord0 = 0x00080034 := by decide +kernel
theorem test_address_register : addrRegWord { sP with hwAddr := 0x7F } = 0x7F := by decide +kernel

/-! ### Memory -/

/-- A byte stored at the top of `MEM` reads back; one more byte is past the end (20_memory.md R71). -/
theorem test_memory_top : memGet (memPut (memPut [] 4294967295 0x11) 5 0x22) 4294967295 = 0x11
    ∧ (memRead 0xFFFFFFFF 1 sP).isOk = true ∧ (memRead 0xFFFFFFFF 2 sP).isOk = false := by
  decide +kernel
/-- Storing the value an unlisted address reads as removes the entry. -/
theorem test_memory_canonical : memPut (memPut [] 5 0x22) 5 0 = [] ∧ Memory.wf (memPut (memPut [] 9 1) 5 2) = true := by
  decide +kernel
theorem test_reset_memory : Memory.wf State.reset.mem = true := by decide

/-! ### SETUP rows (vectors Q1 to Q20), in the state the SETUP leaves -/

/-- Q1. -/
theorem test_getStatus : nextIs (exec (.getStatus ⟨0, 1, 0, 0, 2⟩) sBack) (fun t =>
    isArmed t .tx .even 0x1000 2 .data1 && t.stage == .data && t.bad == none) = true := by decide +kernel
/-- Q2: a length of 0. -/
theorem test_getStatus_none : nextIs (exec (.getStatus ⟨0, 1, 0, 0, 0⟩) sBack) (fun t =>
    isArmed t .tx .even 0x1000 0 .data1 && t.ret == .outcome .dataQueued) = true := by decide +kernel
/-- Q4: the stall is unchanged. -/
theorem test_clearFeature : nextIs (exec (.clearFeature ⟨2, 0, 0, 0, 0⟩) { sBack with ep0Stall := true }) (fun t =>
    isArmed t .tx .even 0x1000 0 .data1 && t.ep0Stall && t.stage == .status) = true := by decide +kernel
/-- Q5. -/
theorem test_setFeature : nextIs (exec (.setFeature ⟨0, 0, 1, 0, 0⟩) sBack) (fun t =>
    isArmed t .tx .even 0x1000 0 .data1 && sameDev t sBack && t.ret == .outcome .noData) = true := by decide +kernel
/-- Q6: bits 15:7 are ignored. -/
theorem test_setAddress : nextIs (exec (.setAddress ⟨0, 0, 0x85, 0, 0⟩) sBack) (fun t =>
    t.pendingAddress == 0x05 && t.devState == .settingAddress && t.hwAddr == 0) = true := by decide +kernel
/-- Q8. -/
theorem test_getDescriptor_none : nextIs (exec (.getDescriptor ⟨0, 1, 0x0300, 0x0409, 0xFF⟩) sDesc) (fun t =>
    t.ep0Stall && t.out == [.stall] && isArmed t .rx .odd 0x1040 64 .data0 && t.stage == .idle) = true := by decide +kernel
/-- Q11: the last chunk is full and a zero-length packet is owed. -/
theorem test_getDescriptor_owed : nextIs (exec (.getDescriptor ⟨0, 1, 0x0200, 0, 0xFF⟩) sDesc) (fun t =>
    isArmed t .tx .even 0x2100 64 .data1 && t.tx.shortTransfer && t.tx.pos == 64) = true := by decide +kernel
/-- E6 for 255: the reply is one byte. -/
theorem test_getConfiguration : nextIs (exec (.getConfiguration ⟨0, 1, 0, 0, 1⟩) { sBack with devConfig := 0xFF }) (fun t =>
    isArmed t .tx .even 0x1000 1 .data1 && memGet t.mem 0x1000 == 0xFF) = true := by decide +kernel
/-- Q18: bits 15:8 are ignored. -/
theorem test_setConfiguration : nextIs (exec (.setConfiguration ⟨0, 0, 0x0101, 0, 0⟩) sBack) (fun t =>
    t.devConfig == 0x01 && t.devState == .configured) = true := by decide +kernel
/-- Q19: value 0. -/
theorem test_setConfiguration_zero : nextIs (exec (.setConfiguration ⟨0, 0, 0, 0, 0⟩) { sBack with devConfig := 7 }) (fun t =>
    t.devConfig == 0 && t.devState == .configured) = true := by decide +kernel
/-- Q20. -/
theorem test_getInterface : nextIs (exec (.getInterface ⟨1, 1, 0, 0, 1⟩) sBack) (fun t =>
    isArmed t .tx .even 0x1000 1 .data1 && memGet t.mem 0x1000 == 0) = true := by decide +kernel

/-- A rejected request: stall, its record, `DEV` unchanged, the control pipe re-armed. -/
def isRejected (o : Host.Outcome State Fault Refusal) : Bool :=
  nextIs o fun t => t.ep0Stall && t.out == [.stall] && sameDev t sBack && isArmed t .rx .odd 0x1040 64 .data0
    && t.ret == .outcome .error

/-- Q14. -/
theorem test_setInterface : isRejected (exec (.setInterface ⟨1, 0, 1, 0, 0⟩) sBack) = true := by decide +kernel
/-- Q17. -/
theorem test_unrecognised : isRejected (exec (.stdUnrecognised02 ⟨0, 0, 0, 0, 0⟩) sBack) = true
    ∧ isRejected (exec (.stdUnrecognised07 ⟨0, 0, 0x0100, 0, 0x12⟩) sBack) = true
    ∧ isRejected (exec (.stdUnrecognised0C0F 0 ⟨2, 1, 0, 0x81, 2⟩) sBack) = true := by decide +kernel
/-- The remaining codes of 44_std_requests.md R282. -/
theorem test_unrecognised_ranges : isRejected (exec (.stdUnrecognised04 ⟨0, 0, 0, 0, 0⟩) sBack) = true
    ∧ isRejected (exec (.stdUnrecognised101F 0 ⟨0, 0, 0, 0, 0⟩) sBack) = true
    ∧ isRejected (exec (.stdUnrecognised203F 0 ⟨0, 0, 0, 0, 0⟩) sBack) = true
    ∧ isRejected (exec (.stdUnrecognised407F 0 ⟨0, 0, 0, 0, 0⟩) sBack) = true
    ∧ isRejected (exec (.stdUnrecognised80FF 0 ⟨0, 0, 0, 0, 0⟩) sBack) = true := by decide +kernel
/-- Q15. -/
theorem test_class_vendor_rejected : isRejected (exec (.classRequest 0x09 ⟨1, 0, 0x0200, 0, 8⟩) sBack) = true
    ∧ isRejected (exec (.vendorRequest 0x01 ⟨0, 1, 0, 0, 4⟩) sBack) = true := by decide +kernel
/-- Q16: the class handler is not called. -/
theorem test_reservedType : isRejected (exec (.reservedTypeRequest 0x00 ⟨0, 0, 0, 0, 0⟩) sBack) = true := by decide +kernel
/-- P5, first step. -/
theorem test_vendor_receives : nextIs (exec (.vendorRequest 0x01 ⟨0, 0, 0, 0, 10⟩) sClass) (fun t =>
    isArmed t .rx .odd 0x5000 10 .data1 && t.rx.pingpong == .even && t.stage == .data) = true := by decide +kernel

/-- A supplied handler that stalls and then sends 2 bytes with `send_small` (44_std_requests.md R290, 45_api.md R314, R326). -/
theorem test_vendor_stalls_and_sends : nextIs
    (exec (.vendorRequest 0x01 ⟨0, 0, 0, 0, 10⟩)
      { sBack with params := { sBack.params with classTable := [⟨reqP5, [0], some (.sendSmall 0x2000 2), false⟩] } })
    (fun t => isArmed t .tx .even 0x1000 2 .data1 && t.ep0Stall && t.out == [.stall] && t.stage == .data) = true := by
  decide +kernel

/-! ### Event rows (vectors F1 to F10, T1 to T14, R1 to R10) -/

/-- F3: the descriptor is still owned. -/
theorem test_evSetupRx_owned : nextIs (exec (.evSetupRx .even 0) sR) (fun t => t.bad == some (.fault .r235)) = true := by
  decide +kernel
/-- P3's request in the buffer. -/
theorem test_evSetupRx : nextIs (exec (.evSetupRx .even 0)
      { sBack with mem := memPutList [] 0x1000 [0x00, 0x09, 0x01, 0x00, 0x00, 0x00, 0x00, 0x00] }) (fun t =>
    t.devConfig == 1 && t.devState == .configured && isArmed t .tx .even 0x1000 0 .data1) = true := by decide +kernel
/-- T6, T11: the second chunk. -/
theorem test_evInTx_next : nextIs (exec (.evInTx .even 0) sTxMid) (fun t =>
    isArmed t .tx .odd 0x2040 36 .data0 && t.tx.pos == 100 && t.tx.pingpong == .even && t.stage == .data) = true := by
  decide +kernel
/-- T6, T12: the end of the data stage emits the callback and arms the status OUT. -/
theorem test_evInTx_end : nextIs (exec (.evInTx .odd 0) sTxEnd) (fun t =>
    t.out == [.cb .tx 9 0x2000 0 7] && t.stage == .status && isArmed t .rx .odd 0x1040 0 .data1) = true := by decide +kernel
/-- R3: the second chunk. -/
theorem test_evOutRx_next : nextIs (exec (.evOutRx .odd 0) sRxMid) (fun t =>
    isArmed t .rx .even 0x5040 36 .data0 && t.rx.pos == 64 && t.stage == .data) = true := by decide +kernel
/-- R3: the end; R8 is the overrun. -/
theorem test_evOutRx_end : nextIs (exec (.evOutRx .even 0) sRxEnd) (fun t =>
      t.out == [.cb .rx 4 0x5000 100 0] && t.stage == .status) = true
    ∧ nextIs (exec (.evOutRx .even 0) (handedBack (bd0 .rx .even) 40 tokOut sRxEnd)) (fun t =>
      t.bad == some (.fault .r206)) = true := by decide +kernel
/-- F1. -/
theorem test_evDiag : nextIs (exec (.evDiagNak .tx .even 0) sR) (fun t => t == sR) = true
    ∧ nextIs (exec (.evDiagTimeout .rx .even 0) sR) (fun t => t == sR) = true
    ∧ nextIs (exec (.evDiagAck .rx .odd 0) sR) (fun t => t == sR) = true
    ∧ nextIs (exec (.evDiagStall .tx .even 0) sR) (fun t => t == sR) = true
    ∧ nextIs (exec (.evDiagDataerr .tx .odd 0) sR) (fun t => t == sR) = true := by decide +kernel

/-- The only effect is the mark. -/
def onlyMarks (o : Host.Outcome State Fault Refusal) (s : State) (m : BadMark) : Bool := nextIs o fun t => t == marked m s

/-- F4, F5. -/
theorem test_evIllegal : onlyMarks (exec (.evIllegalSetupTx .even 0) sBack) sBack (.fault .r247) = true
    ∧ onlyMarks (exec (.evIllegalOutTx .even 0) sBack) sBack (.fault .r247) = true
    ∧ onlyMarks (exec (.evIllegalInRx .even 0) sBack) sBack (.fault .r247) = true
    ∧ onlyMarks (exec (.evIllegalTok3 .rx .even 0) sBack) sBack (.fault .r247) = true := by decide +kernel
theorem test_evIllegal_tokens : onlyMarks (exec (.evIllegalTok47 3 .tx .odd 1) sBack) sBack (.fault .r247) = true
    ∧ onlyMarks (exec (.evIllegalTok8 .rx .odd 0) sBack) sBack (.fault .r247) = true
    ∧ onlyMarks (exec (.evIllegalTokB .rx .even 0) sBack) sBack (.fault .r247) = true
    ∧ onlyMarks (exec (.evIllegalTokC .tx .even 0) sBack) sBack (.fault .r247) = true := by decide +kernel
/-- X4, and the other rows of another endpoint. -/
theorem test_evWrongEndpoint : onlyMarks (exec (.evWrongEndpoint1 0x9 .rx .even 0) sBack) sBack (.refused .endpointNot0) = true
    ∧ onlyMarks (exec (.evWrongEndpoint23 0x0 1 .rx .even 0) sBack) sBack (.refused .endpointNot0) = true
    ∧ onlyMarks (exec (.evWrongEndpoint47 0xB 0 .tx .odd 0) sBack) sBack (.refused .endpointNot0) = true
    ∧ onlyMarks (exec (.evWrongEndpoint8F 0xD 7 .rx .even 0) sBack) sBack (.refused .endpointNot0) = true := by decide +kernel

/-! ### API calls (vectors A1 to A9) -/

/-- A5. -/
theorem test_send : nextIs (exec (.send 0x4000 80 255 (some 9) 0) sBack) (fun t =>
    t.ret == .len 80 && isArmed t .tx .even 0x4000 64 .data1 && t.tx.shortTransfer) = true := by decide +kernel
/-- T13. -/
theorem test_beginTx_in_flight : onlyMarks (exec (.beginTx 0x2000 2 2 none 0) sTx) sTx (.fault .r171) = true := by decide +kernel
/-- T2: the empty chunk clears the owed packet. -/
theorem test_beginTx_empty : nextIs (exec (.beginTx 0x2000 0 64 none 0) sBack) (fun t =>
    t.ret == .len 0 && isArmed t .tx .even 0x2000 0 .data1 && !t.tx.shortTransfer) = true := by decide +kernel
/-- A1. -/
theorem test_sendSmall_capacity : nextIs (exec (.sendSmall 0x3000 65) sR) (fun t =>
    t.ret == .err && t.setRet .nothing == sR) = true := by decide +kernel
/-- A2. -/
theorem test_sendSmall : nextIs (exec (.sendSmall 0x3000 64)
      { sBack with req := some ⟨0, 1, 1, 1, 0, 0, 255⟩, mem := memPut [] 0x303F 0x5A }) (fun t =>
    t.ret == .len 64 && memGet t.mem 0x103F == 0x5A && isArmed t .tx .even 0x1000 64 .data1 && t.tx.shortTransfer) = true := by
  decide +kernel
/-- A6. -/
theorem test_receive : nextIs (exec (.receive 0x5000 10 (some 4) 0) sBack) (fun t =>
    t.ret == .len 10 && isArmed t .rx .odd 0x5000 10 .data0) = true := by decide +kernel
/-- R9. -/
theorem test_beginRx_armed : onlyMarks (exec (.beginRx 0x5000 64 none 0) sR) sR (.fault .r201) = true := by decide +kernel
/-- R1. -/
theorem test_beginRx_empty : nextIs (exec (.beginRx 0x5000 0 (some 4) 0) sBack) (fun t =>
    t.ret == .len 0 && isArmed t .rx .odd 0x5000 0 .data0) = true := by decide +kernel
/-- A7, A8. -/
theorem test_stall : onlyMarks (exec (.stall 1) sR) sR (.refused .endpointNot0) = true
    ∧ nextIs (exec (.stall 0) (after (.stall 0) sR)) (fun t => t.ep0Stall && t.out == [.stall, .stall]) = true := by
  decide +kernel
/-- A9. -/
theorem test_query : nextIs (exec .query sP) (fun t => t.ret == .query .disabled 0) = true
    ∧ nextIs (exec .query sR) (fun t => t.ret == .query .default 0) = true := by decide +kernel

/-! ### Environment steps (vectors V1 to V7, programs P1, F2) -/

/-- P1, first step. -/
theorem test_envSetup : nextIs (exec (.envSetup none ⟨0x00, 0x05, 0x05, 0x00, 0x00, 0x00, 0x00, 0x00⟩) sR) (fun t =>
    t.pendingAddress == 5 && t.hwAddr == 0 && isArmed t .tx .even 0x1000 0 .data1 && (t.bdAt 0).bc == 8
      && (t.bdAt 0).tokPid == 0xD && !(t.bdAt 0).own && memGet t.mem 0x1002 == 5) = true := by decide +kernel
/-- F8, F10 (a): no RX descriptor is owned, so the SETUP cannot land. -/
theorem test_envSetup_no_step : nextIs (exec (.envSetup none ⟨0x80, 0x00, 0, 0, 0, 0, 2, 0⟩) sAddr) (fun t =>
    t.ret == .noStep && t.setRet .nothing == sAddr) = true := by decide +kernel
/-- P1, second step. -/
theorem test_envIn : nextIs (exec (.envIn none) sAddr) (fun t =>
    t.devState == .address && t.hwAddr == 5 && t.stage == .idle && t.out == [.hostIn .data1 [], .addrSet 5]
      && isArmed t .rx .odd 0x1040 64 .data0 && t.tx.data01 == .data1 && t.rx.data01 == .data0) = true := by decide +kernel
/-- V4: no step while endpoint 0 is stalled. -/
theorem test_envIn_stalled : nextIs (exec (.envIn none) { sTx with ep0Stall := true }) (fun t => t.ret == .noStep) = true := by
  decide +kernel
/-- F2. -/
theorem test_envOut_idle : nextIs (exec (.envOut none none 3 (some [0xAA, 0xBB, 0xCC])) sR) (fun t =>
    t.ep0Stall && t.out == [.stall] && t.stage == .idle && isArmed t .rx .odd 0x1040 64 .data0 && t.rx.pingpong == .even
      && memGet t.mem 0x1002 == 0xCC) = true := by decide +kernel
/-- V6: another data PID. -/
theorem test_envOut_pid : nextIs (exec (.envOut (some .even) (some .data1) 1 (some [0xAA])) sR) (fun t =>
    t.ret == .noStep && t.setRet .nothing == sR) = true := by decide +kernel
/-- V7, F1. -/
theorem test_envDiag : nextIs (exec (.envDiag .timeout .rx (some .even) (some true)) sR) (fun t =>
      !(t.bdAt 0).own && (t.bdAt 0).tokPid == 0 && t.stage == .idle) = true
    ∧ nextIs (exec (.envDiag .nak .tx none (some false)) sR) (fun t => t == sR) = true := by decide +kernel

/-! ### Reset steps (vectors Z1 to Z5) -/

/-- Z1, Z5. -/
theorem test_reset : nextIs (exec .reset { sTx with bad := some (.fault .r71) }) (fun t =>
    t.devState == .disabled && t.hwAddr == 0 && !(t.bdAt 2).own && t.bad == some (.fault .r71)) = true := by decide +kernel
/-- Z2, Z3. -/
theorem test_busreset : nextIs (exec .busreset { sAddr with hwAddr := 5, devState := .configured, devConfig := 1 }) (fun t =>
    t.devState == .default && t.devConfig == 0 && t.hwAddr == 0 && isArmed t .rx .even 0x1000 64 .data0
      && t.rx.pingpong == .odd && t.tx.data01 == .data1 && !(t.bdAt 2).own) = true := by decide +kernel

/-! ### The machine's step -/

/-- A record at the front of the inputs runs as the next step; with none the machine waits. -/
theorem test_step_runs : nextIs (step (State.reset.withFetchWord 16 0x0900)) (fun t => t.devState == .configured) = true
    ∧ nextIs (step State.reset) (fun t => t == State.reset) = true := by decide +kernel

/-! ### Witnesses: for each statement with hypotheses, a state and operands that meet them -/

theorem witness_DecodeInvertsEncode : (Instr.envOut (some .odd) (some .data1) 2 (some [0xAA, 0xBB])).wellFormed = true := by
  decide
theorem witness_EncodeInvertsDecode : decode [0x01, 0x0C, 0x09] = .ok (.evInTx .odd 0) := by decide +kernel
theorem witness_DirectoryIndexAndInverse : bdIndex 15 .tx .odd = bdIndex 15 .tx .odd := rfl
theorem witness_DescriptorWordForm : (1023 : Nat) < 1024 ∧ (sBack.bdAt 0).own = false := by decide +kernel
theorem witness_StepRunsTheDecodedInstruction :
    (sP.setInputs [.step [0x31]]).inputs = [.step [0x31]] ∧ decode [0x31] = .ok .busreset := by decide +kernel
theorem witness_StepWithoutARow : sP.inputs = [] ∧ (sP.setInputs [.callerWrite 0xFFFFFFFF 1]).inputs = [.callerWrite 0xFFFFFFFF 1]
    ∧ (sP.setInputs [.step [0x77]]).inputs = [.step [0x77]] ∧ decode [0x77] = .error (.unknownKind 0x77) := by decide +kernel
theorem witness_StallSetsTheIndicationOrIsRefused : (0 : BitVec 4) = 0 ∧ (15 : BitVec 4) ≠ 0 := by decide
theorem witness_SendArmsTheFirstChunk : noneOwned .tx sBack ∧ ¬ noneOwned .tx sTx := by
  simp only [noneOwned]
  decide +kernel
theorem witness_ReceiveArmsTheFirstChunk : noneOwned .rx sBack ∧ ¬ noneOwned .rx sR := by
  simp only [noneOwned]
  decide +kernel

/-- `len` at the buffer's size and one above; ranges that end at the top of `MEM` and one byte past it. -/
theorem witness_SendSmallCopiesAndSends :
    sBack.params.bufSize.toNat < (65 : Len).toNat
    ∧ ((64 : Len).toNat ≤ sBack.params.bufSize.toNat ∧ (0xFFFFFFC0 : Addr).toNat + (64 : Len).toNat ≤ memSize
      ∧ (sBack.scratch sBack.tx.pingpong).toNat + (64 : Len).toNat ≤ memSize ∧ noneOwned .tx sBack)
    ∧ ((64 : Len).toNat ≤ sTx.params.bufSize.toNat ∧ (0x3000 : Addr).toNat + (64 : Len).toNat ≤ memSize
      ∧ (sTx.scratch sTx.tx.pingpong).toNat + (64 : Len).toNat ≤ memSize ∧ ¬ noneOwned .tx sTx)
    ∧ ((64 : Len).toNat ≤ sBack.params.bufSize.toNat ∧ memSize < (0xFFFFFFC1 : Addr).toNat + (64 : Len).toNat) := by
  simp only [noneOwned]
  decide +kernel

/-- A state whose scratch buffer lies at the top of `MEM`, `n` bytes below it. -/
def sTopScratch (n : BitVec 32) : State := { sBack with params := { sBack.params with scratchEven := 0 - n } }

theorem witness_ReplyRequestsQueueTheirBytes :
    ((sTopScratch 2).scratch (sTopScratch 2).tx.pingpong).toNat + 2 ≤ memSize
    ∧ memSize < ((sTopScratch 1).scratch (sTopScratch 1).tx.pingpong).toNat + 2 := by
  decide +kernel
theorem witness_FeatureRequestsOnlyRunTheStatusStage :
    (⟨2, 0, 0, 0, 0⟩ : ReqFields).dir = 0 ∧ ((⟨2, 1, 0, 0, 0⟩ : ReqFields).dir ≠ 0 ∧ noneOwned .rx sBack)
    ∧ ((⟨2, 1, 0, 0, 0⟩ : ReqFields).dir ≠ 0 ∧ ¬ noneOwned .rx sR) := by
  simp only [noneOwned]
  decide +kernel
theorem witness_SetAddressStoresAndDefers :
    (⟨0, 0, 0x85, 0, 0⟩ : ReqFields).dir = 0 ∧ ((⟨0, 1, 5, 0, 0⟩ : ReqFields).dir ≠ 0 ∧ ¬ noneOwned .rx sR) := by
  simp only [noneOwned]
  decide +kernel
theorem witness_SetConfigurationStoresAndConfigures :
    (⟨0, 0, 0x0101, 0, 0⟩ : ReqFields).dir = 0 ∧ ((⟨0, 1, 1, 0, 0⟩ : ReqFields).dir ≠ 0 ∧ ¬ noneOwned .rx sR) := by
  simp only [noneOwned]
  decide +kernel
theorem witness_GetDescriptorSendsOrRejects :
    (sDesc.params.lookup.find? fun e => e.value == 0x0200 && e.index == 0) = some ⟨0x0200, 0, 0x2100, 64⟩
    ∧ ((sDesc.params.lookup.find? fun e => e.value == 0x0300 && e.index == 0x0409) = none ∧ noneOwned .rx sDesc)
    ∧ ((sR.params.lookup.find? fun e => e.value == 0x0300 && e.index == 0x0409) = none ∧ ¬ noneOwned .rx sR) := by
  simp only [noneOwned]
  decide +kernel
theorem witness_RejectedRequestsStallAndRearm :
    isRejectRow (.setInterface ⟨1, 0, 1, 0, 0⟩) = true ∧ (Instr.setInterface ⟨1, 0, 1, 0, 0⟩).req? = some ⟨1, 0, 0, 0x0B, 1, 0, 0⟩
    ∧ noneOwned .rx sBack ∧ ¬ noneOwned .rx sR := by
  simp only [noneOwned]
  decide +kernel
theorem witness_ClassRequestsRejectedByDefault :
    isClassRow (.classRequest 0x09 ⟨1, 0, 0x0200, 0, 8⟩) = true
    ∧ (Instr.classRequest 0x09 ⟨1, 0, 0x0200, 0, 8⟩).req? = some ⟨1, 1, 0, 0x09, 0x0200, 0, 8⟩
    ∧ (sBack.params.classTable.find? fun e => e.req == ⟨1, 1, 0, 0x09, 0x0200, 0, 8⟩) = none ∧ noneOwned .rx sBack
    ∧ (sR.params.classTable.find? fun e => e.req == ⟨1, 1, 0, 0x09, 0x0200, 0, 8⟩) = none ∧ ¬ noneOwned .rx sR := by
  simp only [noneOwned]
  decide +kernel
/-- `s` with a supplied `ClassHandler` of one entry, for the request of program P5. -/
def withClass (stalls : List (BitVec 4)) (transfer : Option ClassTransfer) (accept : Bool) (s : State) : State :=
  { s with params := { s.params with classTable := [⟨reqP5, stalls, transfer, accept⟩] } }
/-- The premises that every clause of the statement shares. -/
theorem witness_SuppliedClassHandlerRuns (stalls : List (BitVec 4)) (transfer : Option ClassTransfer) (accept : Bool) (s : State) :
    isClassRow (.vendorRequest 0x01 ⟨0, 0, 0, 0, 10⟩) = true ∧ (Instr.vendorRequest 0x01 ⟨0, 0, 0, 0, 10⟩).req? = some reqP5
    ∧ ((withClass stalls transfer accept s).params.classTable.find? fun x => x.req == reqP5)
        = some ⟨reqP5, stalls, transfer, accept⟩ := by
  refine ⟨rfl, rfl, ?_⟩
  simp [withClass]
/-- The same premises for a request with `dir = 1`. -/
theorem witness_SuppliedClassHandlerRuns_dir1 :
    isClassRow (.classRequest 0x02 ⟨0, 1, 0, 0, 8⟩) = true
    ∧ (Instr.classRequest 0x02 ⟨0, 1, 0, 0, 8⟩).req? = some ⟨0, 1, 1, 0x02, 0, 0, 8⟩
    ∧ (({ sR with params := { sR.params with classTable := [⟨⟨0, 1, 1, 0x02, 0, 0, 8⟩, [0], none, true⟩] } } : State).params.classTable.find?
        fun x => x.req == ⟨0, 1, 1, 0x02, 0, 0, 8⟩) = some ⟨⟨0, 1, 1, 0x02, 0, 0, 8⟩, [0], none, true⟩ ∧ ¬ noneOwned .rx sR := by
  simp only [noneOwned]
  decide +kernel
theorem witness_SuppliedClassHandlerRuns_stalls : (∃ ep ∈ [(0 : BitVec 4), 1], ep ≠ 0) ∧ (∀ ep ∈ [(0 : BitVec 4), 0], ep = 0) := by
  decide
/-- The RX clauses: no RX descriptor owned, and one owned, under any entry. -/
theorem witness_SuppliedClassHandlerRuns_rx (stalls : List (BitVec 4)) (transfer : Option ClassTransfer) (accept : Bool) :
    noneOwned .rx (withClass stalls transfer accept sBack) ∧ ¬ noneOwned .rx (withClass stalls transfer accept sR) := by
  have h : noneOwned .rx sBack ∧ ¬ noneOwned .rx sR := by
    simp only [noneOwned]
    decide +kernel
  exact h
/-- The `send_small` clauses at their bounds: 64 of 64 bytes, ranges that end at and past the top of `MEM`. -/
theorem witness_SuppliedClassHandlerRuns_sendSmall :
    (64 : Len).toNat ≤ sBack.params.bufSize.toNat ∧ (0xFFFFFFC0 : Addr).toNat + (64 : Len).toNat ≤ memSize
    ∧ (sBack.scratch sBack.tx.pingpong).toNat + (64 : Len).toNat ≤ memSize
    ∧ memSize < (0xFFFFFFC1 : Addr).toNat + (64 : Len).toNat := by decide +kernel
/-- A handler that queues nothing: no call, and 65 of 64 bytes. -/
theorem witness_SuppliedClassHandlerRuns_queuesNone (stalls : List (BitVec 4)) (accept : Bool) :
    queuesNone ⟨reqP5, stalls, none, accept⟩ sBack
    ∧ queuesNone ⟨reqP5, stalls, some (.sendSmall 0x2000 65), accept⟩ sBack := by
  have h : sBack.params.bufSize.toNat < (65 : Len).toNat := by decide +kernel
  exact ⟨.inl rfl, .inr ⟨_, _, rfl, h⟩⟩
theorem witness_DiagnosticEventsChangeNothing : isDiagRow (.evDiagNak .tx .even 0) = true := by decide
theorem witness_IllegalEventsFault : illegalEventBd (.evIllegalTok3 .rx .even 0) = some (bd0 .rx .even)
    ∧ (sBack.bdAt (bd0 .rx .even)).own = false ∧ (sR.bdAt (bd0 .rx .even)).own = true := by decide +kernel
theorem witness_OtherEndpointsAreRefused : isWrongEndpointRow (.evWrongEndpoint1 0x3 .rx .even 0) = true := by decide
theorem witness_EventOfAnOwnedDescriptorFaults : (sR.bdAt (bd0 .rx .even)).own = true ∧ (sTx.bdAt (bd0 .tx .even)).own = true := by
  decide +kernel

/-- `sBack` with the 8 bytes of SET_ADDRESS(5) in the buffer; and one whose buffer runs past the top of `MEM`. -/
def sSetup : State := { sBack with mem := memPutList [] 0x1000 [0x00, 0x05, 0x05, 0x00, 0x00, 0x00, 0x00, 0x00] }
def sTopBuffer (a : Addr) : State := sBack.setBd (bd0 .rx .even) { sBack.bdAt (bd0 .rx .even) with addr := a }

theorem witness_SetupEventRunsTheRequestRow :
    ((sSetup.bdAt (bd0 .rx .even)).own = false ∧ (sSetup.bdAt (bd0 .rx .even)).addr.toNat + 8 ≤ memSize
      ∧ SetupData.toList ⟨0x00, 0x05, 0x05, 0x00, 0x00, 0x00, 0x00, 0x00⟩
          = memGetList sSetup.mem (sSetup.bdAt (bd0 .rx .even)).addr.toNat 8)
    ∧ (((sTopBuffer 0xFFFFFFF9).bdAt (bd0 .rx .even)).own = false
      ∧ memSize < ((sTopBuffer 0xFFFFFFF9).bdAt (bd0 .rx .even)).addr.toNat + 8) := by
  decide +kernel
theorem witness_SetupEventOfSetAddress :
    (sSetup.bdAt (bd0 .rx .even)).own = false ∧ (sSetup.bdAt (bd0 .rx .even)).addr.toNat + 8 ≤ memSize
    ∧ SetupData.toList ⟨0x00, 0x05, 0x05, 0x00, 0x00, 0x00, 0x00, 0x00⟩
        = memGetList sSetup.mem (sSetup.bdAt (bd0 .rx .even)).addr.toNat 8
    ∧ (decodeReq ⟨0x00, 0x05, 0x05, 0x00, 0x00, 0x00, 0x00, 0x00⟩).type = 0
    ∧ (decodeReq ⟨0x00, 0x05, 0x05, 0x00, 0x00, 0x00, 0x00, 0x00⟩).request = 0x05
    ∧ (decodeReq ⟨0x00, 0x05, 0x05, 0x00, 0x00, 0x00, 0x00, 0x00⟩).dir = 0 := by
  decide +kernel

/-- `sTxMid` with another buffer address, and with the pipe's next descriptor owned. -/
def sTxAt (a : Addr) : State := { sTxMid with tx := { sTxMid.tx with dataBuf := a } }
def sTxBusy : State := sTxMid.setBd (bd0 .tx .odd) { sTxMid.bdAt (bd0 .tx .odd) with own := true }

/-- The chunk at `data_buf + 64` starts at the last byte of `MEM`, and one byte past it. -/
theorem witness_InEventArmsTheNextChunk :
    ((sTxAt 0xFFFFFFBF).bdAt (bd0 .tx .even)).own = false ∧ (sTxAt 0xFFFFFFBF).stage = .data ∧ ¬ txDone (sTxAt 0xFFFFFFBF)
    ∧ (sTxAt 0xFFFFFFBF).tx.dataBuf.toNat + (sTxAt 0xFFFFFFBF).tx.pos.toNat < memSize
    ∧ ((sTxAt 0xFFFFFFBF).bdAt (bd0 .tx (sTxAt 0xFFFFFFBF).tx.pingpong)).own = false := by
  simp only [txDone]
  decide +kernel
theorem witness_InEventArmsTheNextChunk_faults :
    ((sTxBusy.bdAt (bd0 .tx .even)).own = false ∧ sTxBusy.stage = .data ∧ ¬ txDone sTxBusy
      ∧ sTxBusy.tx.dataBuf.toNat + sTxBusy.tx.pos.toNat < memSize ∧ (sTxBusy.bdAt (bd0 .tx sTxBusy.tx.pingpong)).own = true)
    ∧ (((sTxAt 0xFFFFFFC0).bdAt (bd0 .tx .even)).own = false ∧ (sTxAt 0xFFFFFFC0).stage = .data ∧ ¬ txDone (sTxAt 0xFFFFFFC0)
      ∧ memSize ≤ (sTxAt 0xFFFFFFC0).tx.dataBuf.toNat + (sTxAt 0xFFFFFFC0).tx.pos.toNat) := by
  simp only [txDone]
  decide +kernel

/-- The state with `BD[0]` owned again. -/
def withRx (s : State) : State := s.setBd (bd0 .rx .even) { s.bdAt (bd0 .rx .even) with own := true }

theorem witness_InEventEndsTheDataStage :
    (sTxEnd.bdAt (bd0 .tx .odd)).own = false ∧ sTxEnd.stage = .data ∧ txDone sTxEnd ∧ noneOwned .rx sTxEnd
    ∧ ((withRx sTxEnd).bdAt (bd0 .tx .odd)).own = false ∧ (withRx sTxEnd).stage = .data ∧ txDone (withRx sTxEnd)
    ∧ ¬ noneOwned .rx (withRx sTxEnd) := by
  simp only [txDone, noneOwned]
  decide +kernel
theorem witness_InEventEndsTheStatusStage :
    (sAddrBack.bdAt (bd0 .tx .even)).own = false ∧ sAddrBack.stage = .status ∧ txDone sAddrBack ∧ noneOwned .rx sAddrBack
    ∧ ((withRx sAddrBack).bdAt (bd0 .tx .even)).own = false ∧ (withRx sAddrBack).stage = .status ∧ txDone (withRx sAddrBack)
    ∧ ¬ noneOwned .rx (withRx sAddrBack) := by
  simp only [txDone, noneOwned]
  decide +kernel
theorem witness_DataEventInIdleIsAProtocolError :
    (sBack.stage = .idle ∧ (sBack.bdAt (bd0 .tx .even)).own = false ∧ (sBack.bdAt (bd0 .rx .even)).own = false ∧ noneOwned .rx sBack)
    ∧ (sR.stage = .idle ∧ (sR.bdAt (bd0 .tx .odd)).own = false ∧ (sR.bdAt (bd0 .rx .odd)).own = false ∧ ¬ noneOwned .rx sR) := by
  simp only [noneOwned]
  decide +kernel

/-- `sRxMid` with another buffer address, and with the pipe's next descriptor owned. -/
def sRxAt (a : Addr) : State := { sRxMid with rx := { sRxMid.rx with dataBuf := a } }
def sRxBusy : State := sRxMid.setBd (bd0 .rx .even) { sRxMid.bdAt (bd0 .rx .even) with own := true }

theorem witness_OutEventArmsTheNextChunk :
    ((sRxAt 0xFFFFFFBF).bdAt (bd0 .rx .odd)).own = false ∧ (sRxAt 0xFFFFFFBF).stage = .data
    ∧ (sRxAt 0xFFFFFFBF).rx.pos.toNat + ((sRxAt 0xFFFFFFBF).bdAt (bd0 .rx .odd)).bc.toNat ≤ (sRxAt 0xFFFFFFBF).rx.transferSize.toNat
    ∧ ¬ rxDone ((sRxAt 0xFFFFFFBF).bdAt (bd0 .rx .odd)).bc.toNat (sRxAt 0xFFFFFFBF)
    ∧ (sRxAt 0xFFFFFFBF).rx.dataBuf.toNat
        + ((sRxAt 0xFFFFFFBF).rx.pos.toNat + ((sRxAt 0xFFFFFFBF).bdAt (bd0 .rx .odd)).bc.toNat) < memSize
    ∧ ((sRxAt 0xFFFFFFBF).bdAt (bd0 .rx (sRxAt 0xFFFFFFBF).rx.pingpong)).own = false := by
  simp only [rxDone]
  decide +kernel
theorem witness_OutEventArmsTheNextChunk_owned :
    (sRxBusy.bdAt (bd0 .rx .odd)).own = false ∧ sRxBusy.stage = .data
    ∧ sRxBusy.rx.pos.toNat + (sRxBusy.bdAt (bd0 .rx .odd)).bc.toNat ≤ sRxBusy.rx.transferSize.toNat
    ∧ ¬ rxDone (sRxBusy.bdAt (bd0 .rx .odd)).bc.toNat sRxBusy
    ∧ sRxBusy.rx.dataBuf.toNat + (sRxBusy.rx.pos.toNat + (sRxBusy.bdAt (bd0 .rx .odd)).bc.toNat) < memSize
    ∧ (sRxBusy.bdAt (bd0 .rx sRxBusy.rx.pingpong)).own = true := by
  simp only [rxDone]
  decide +kernel
theorem witness_OutEventArmsTheNextChunk_top :
    ((sRxAt 0xFFFFFFC0).bdAt (bd0 .rx .odd)).own = false ∧ (sRxAt 0xFFFFFFC0).stage = .data
    ∧ (sRxAt 0xFFFFFFC0).rx.pos.toNat + ((sRxAt 0xFFFFFFC0).bdAt (bd0 .rx .odd)).bc.toNat ≤ (sRxAt 0xFFFFFFC0).rx.transferSize.toNat
    ∧ ¬ rxDone ((sRxAt 0xFFFFFFC0).bdAt (bd0 .rx .odd)).bc.toNat (sRxAt 0xFFFFFFC0)
    ∧ memSize ≤ (sRxAt 0xFFFFFFC0).rx.dataBuf.toNat
        + ((sRxAt 0xFFFFFFC0).rx.pos.toNat + ((sRxAt 0xFFFFFFC0).bdAt (bd0 .rx .odd)).bc.toNat) := by
  simp only [rxDone]
  decide +kernel

/-- `sRxEnd` with a TX descriptor owned. -/
def sRxEndTx : State := sRxEnd.setBd (bd0 .tx .even) { sRxEnd.bdAt (bd0 .tx .even) with own := true }

theorem witness_OutEventEndsTheTransfer_data :
    (sRxEnd.bdAt (bd0 .rx .even)).own = false
    ∧ sRxEnd.rx.pos.toNat + (sRxEnd.bdAt (bd0 .rx .even)).bc.toNat ≤ sRxEnd.rx.transferSize.toNat
    ∧ rxDone (sRxEnd.bdAt (bd0 .rx .even)).bc.toNat sRxEnd ∧ sRxEnd.stage = .data ∧ noneOwned .tx sRxEnd
    ∧ (sRxEndTx.bdAt (bd0 .rx .even)).own = false
    ∧ sRxEndTx.rx.pos.toNat + (sRxEndTx.bdAt (bd0 .rx .even)).bc.toNat ≤ sRxEndTx.rx.transferSize.toNat
    ∧ rxDone (sRxEndTx.bdAt (bd0 .rx .even)).bc.toNat sRxEndTx ∧ sRxEndTx.stage = .data ∧ ¬ noneOwned .tx sRxEndTx := by
  simp only [rxDone, noneOwned]
  decide +kernel
theorem witness_OutEventEndsTheTransfer_status :
    (sStatusOut.bdAt (bd0 .rx .odd)).own = false
    ∧ sStatusOut.rx.pos.toNat + (sStatusOut.bdAt (bd0 .rx .odd)).bc.toNat ≤ sStatusOut.rx.transferSize.toNat
    ∧ rxDone (sStatusOut.bdAt (bd0 .rx .odd)).bc.toNat sStatusOut ∧ sStatusOut.stage = .status ∧ noneOwned .rx sStatusOut
    ∧ ((withRx sStatusOut).bdAt (bd0 .rx .odd)).own = false
    ∧ (withRx sStatusOut).rx.pos.toNat + ((withRx sStatusOut).bdAt (bd0 .rx .odd)).bc.toNat
        ≤ (withRx sStatusOut).rx.transferSize.toNat
    ∧ rxDone ((withRx sStatusOut).bdAt (bd0 .rx .odd)).bc.toNat (withRx sStatusOut) ∧ (withRx sStatusOut).stage = .status
    ∧ ¬ noneOwned .rx (withRx sStatusOut) := by
  simp only [rxDone, noneOwned]
  decide +kernel

/-- Vector R8: 40 bytes where 36 are left. -/
theorem witness_OutOverrunFaults :
    ((handedBack (bd0 .rx .even) 40 tokOut sRxEnd).bdAt (bd0 .rx .even)).own = false
    ∧ (handedBack (bd0 .rx .even) 40 tokOut sRxEnd).stage ≠ .idle
    ∧ (handedBack (bd0 .rx .even) 40 tokOut sRxEnd).rx.transferSize.toNat
        < (handedBack (bd0 .rx .even) 40 tokOut sRxEnd).rx.pos.toNat
          + ((handedBack (bd0 .rx .even) 40 tokOut sRxEnd).bdAt (bd0 .rx .even)).bc.toNat := by
  decide +kernel

/-- `sTxMid` and `sRxMid` in stage `Status`. -/
def sTxStatus : State := { sTxMid with stage := .status }
def sRxStatus : State := { sRxMid with stage := .status }

theorem witness_UnfinishedStatusTransferFaults :
    (sTxStatus.stage = .status ∧ (sTxStatus.bdAt (bd0 .tx .even)).own = false ∧ ¬ txDone sTxStatus
      ∧ sTxStatus.tx.dataBuf.toNat + sTxStatus.tx.pos.toNat < memSize
      ∧ (sTxStatus.bdAt (bd0 .tx sTxStatus.tx.pingpong)).own = false)
    ∧ (sRxStatus.stage = .status ∧ (sRxStatus.bdAt (bd0 .rx .odd)).own = false
      ∧ ¬ rxDone (sRxStatus.bdAt (bd0 .rx .odd)).bc.toNat sRxStatus
      ∧ sRxStatus.rx.pos.toNat + (sRxStatus.bdAt (bd0 .rx .odd)).bc.toNat ≤ sRxStatus.rx.transferSize.toNat
      ∧ sRxStatus.rx.dataBuf.toNat + (sRxStatus.rx.pos.toNat + (sRxStatus.bdAt (bd0 .rx .odd)).bc.toNat) < memSize
      ∧ (sRxStatus.bdAt (bd0 .rx sRxStatus.rx.pingpong)).own = false) := by
  simp only [txDone, rxDone]
  decide +kernel

/-- `sRx` in stage `Data`: 64 bytes armed in `BD[1]`, nothing handed back. -/
def sRxData : State := { sRx with stage := .data }
/-- A last OUT of 10 bytes into `sRxData` (vector R4). -/
def bytes10 : List Byte := [0, 1, 2, 3, 4, 5, 6, 7, 8, 9]

theorem witness_EnvironmentStepsDeliverTheirEvent_setup :
    sR.bad = none ∧ (sR.bdAt (bd0 .rx .even)).own = true ∧ (sR.bdAt (bd0 .rx .even)).addr.toNat + 8 ≤ memSize
    ∧ ∃ u, exec (.evSetupRx .even 0) (setupLanded .even ⟨0x80, 0x00, 0, 0, 0, 0, 2, 0⟩ sR) = .next u ∧ u.bad = none := by
  refine ⟨by decide +kernel, by decide +kernel, by decide +kernel, ?_⟩
  obtain ⟨u, h, hb⟩ := nextIs_exists (o := exec (.evSetupRx .even 0) (setupLanded .even ⟨0x80, 0x00, 0, 0, 0, 0, 2, 0⟩ sR))
    (p := fun t => t.bad == none) (by decide +kernel)
  exact ⟨u, h, by simpa using hb⟩
theorem witness_EnvironmentStepsDeliverTheirEvent_in :
    sAddr.bad = none ∧ (sAddr.bdAt (bd0 .tx .even)).own = true ∧ sAddr.ep0Stall = false
    ∧ (sAddr.bdAt (bd0 .tx .even)).addr.toNat + (sAddr.bdAt (bd0 .tx .even)).bc.toNat ≤ memSize
    ∧ ∃ u, exec (.evInTx .even 0) (inTaken .even sAddr) = .next u ∧ u.bad = none := by
  refine ⟨by decide +kernel, by decide +kernel, by decide +kernel, by decide +kernel, ?_⟩
  obtain ⟨u, h, hb⟩ := nextIs_exists (o := exec (.evInTx .even 0) (inTaken .even sAddr))
    (p := fun t => t.bad == none) (by decide +kernel)
  exact ⟨u, h, by simpa using hb⟩
theorem witness_EnvironmentStepsDeliverTheirEvent_out :
    sRxData.bad = none ∧ (sRxData.bdAt (bd0 .rx .odd)).own = true ∧ sRxData.ep0Stall = false
    ∧ bytes10.length = (10 : BitVec 16).toNat ∧ (10 : BitVec 16).toNat ≤ (sRxData.bdAt (bd0 .rx .odd)).bc.toNat
    ∧ (sRxData.bdAt (bd0 .rx .odd)).addr.toNat + (10 : BitVec 16).toNat ≤ memSize
    ∧ ∃ u, exec (.evOutRx .odd 0) (outLanded .odd bytes10 sRxData) = .next u ∧ u.bad = none := by
  refine ⟨by decide +kernel, by decide +kernel, by decide +kernel, by decide +kernel, by decide +kernel, by decide +kernel, ?_⟩
  obtain ⟨u, h, hb⟩ := nextIs_exists (o := exec (.evOutRx .odd 0) (outLanded .odd bytes10 sRxData))
    (p := fun t => t.bad == none) (by decide +kernel)
  exact ⟨u, h, by simpa using hb⟩
theorem witness_EnvSetupOfSetAddress :
    Memory.wf sR.mem = true ∧ (sR.bdAt (bd0 .rx .even)).own = true ∧ (sR.bdAt (bd0 .rx .even)).addr.toNat + 8 ≤ memSize
    ∧ (decodeReq ⟨0x00, 0x05, 0x05, 0x00, 0x00, 0x00, 0x00, 0x00⟩).type = 0
    ∧ (decodeReq ⟨0x00, 0x05, 0x05, 0x00, 0x00, 0x00, 0x00, 0x00⟩).request = 0x05
    ∧ (decodeReq ⟨0x00, 0x05, 0x05, 0x00, 0x00, 0x00, 0x00, 0x00⟩).dir = 0 := by
  decide +kernel
theorem witness_EnvInOfTheStatusStage :
    (sAddr.bdAt (bd0 .tx .even)).own = true ∧ sAddr.ep0Stall = false
    ∧ (sAddr.bdAt (bd0 .tx .even)).addr.toNat + (sAddr.bdAt (bd0 .tx .even)).bc.toNat ≤ memSize
    ∧ sAddr.stage = .status ∧ txDone sAddr ∧ noneOwned .rx sAddr := by
  simp only [txDone, noneOwned]
  decide +kernel
theorem witness_EnvOutEndsTheDataStage :
    (sRxData.bdAt (bd0 .rx .odd)).own = true ∧ sRxData.ep0Stall = false ∧ bytes10.length = (10 : BitVec 16).toNat
    ∧ (10 : BitVec 16).toNat ≤ (sRxData.bdAt (bd0 .rx .odd)).bc.toNat
    ∧ (sRxData.bdAt (bd0 .rx .odd)).addr.toNat + (10 : BitVec 16).toNat ≤ memSize ∧ sRxData.stage = .data
    ∧ sRxData.rx.pos.toNat + (10 : BitVec 16).toNat ≤ sRxData.rx.transferSize.toNat
    ∧ rxDone (10 : BitVec 16).toNat sRxData ∧ noneOwned .tx sRxData := by
  simp only [rxDone, noneOwned]
  decide +kernel
theorem witness_EnvDiagReleasesOrChangesNothing :
    (sR.bdAt (bd0 .rx .odd)).own = false ∧ (sR.bdAt (bd0 .rx .even)).own = true := by decide +kernel
theorem witness_FailedPreconditionsAreNoStep :
    (sR.bdAt (bd0 .rx .odd)).own = false ∧ (sR.bdAt (bd0 .tx .even)).own = false ∧ { sTx with ep0Stall := true }.ep0Stall = true
    ∧ Toggle.data1 ≠ (sR.bdAt (bd0 .rx .even)).data01 ∧ (sR.bdAt (bd0 .rx .even)).bc.toNat < (65 : BitVec 16).toNat := by
  decide +kernel
theorem witness_ScriptFormTakesTheOwnedDescriptor :
    ((sRx.bdAt (bd0 .rx .odd)).own = true ∧ (sRx.bdAt (bd0 .rx (flipSlot .odd))).own = false)
    ∧ ((sTx.bdAt (bd0 .tx .even)).own = true ∧ (sTx.bdAt (bd0 .tx (flipSlot .even))).own = false) := by
  decide +kernel
theorem witness_FailingStepsOnlyMark :
    sR.bad = none ∧ ∃ t, exec (.stall 1) sR = .next t ∧ t.bad = some (.refused .endpointNot0) := by
  refine ⟨by decide +kernel, ?_⟩
  obtain ⟨t, h, hb⟩ := nextIs_exists (o := exec (.stall 1) sR) (p := fun t => t.bad == some (.refused .endpointNot0))
    (by decide +kernel)
  exact ⟨t, h, by simpa using hb⟩

/-- A marked state whose next input is the reset step. -/
def sMarked : State := { sTx with bad := some (.fault .r71), inputs := [.step [0x30]] }

theorem witness_TheMarkIsNeverCleared : sMarked.bad = some (.fault .r71) ∧ ∃ t, step sMarked = .next t := by
  refine ⟨by decide +kernel, ?_⟩
  obtain ⟨t, h, -⟩ := nextIs_exists (o := step sMarked) (p := fun _ => true) (by decide +kernel)
  exact ⟨t, h⟩
theorem witness_AddressChangesOnlyAtTheCommit :
    (∃ t, exec (.evInTx .even 0) sAddrBack = .next t ∧ t.hwAddr ≠ sAddrBack.hwAddr)
    ∧ ∃ t, exec .busreset { sR with hwAddr := 5 } = .next t ∧ t.hwAddr ≠ { sR with hwAddr := 5 }.hwAddr := by
  constructor
  · obtain ⟨t, h, hb⟩ := nextIs_exists (o := exec (.evInTx .even 0) sAddrBack) (p := fun t => t.hwAddr != sAddrBack.hwAddr)
      (by decide +kernel)
    exact ⟨t, h, by simpa using hb⟩
  · obtain ⟨t, h, hb⟩ := nextIs_exists (o := exec .busreset { sR with hwAddr := 5 }) (p := fun t => t.hwAddr != 5)
      (by decide +kernel)
    exact ⟨t, h, by simpa using hb⟩

/-- `sR` with a SETUP of the host as its next input. -/
def sRun : State := { sR with inputs := [.step [0x20, 0x02, 0x80, 0x00, 0, 0, 0, 0, 2, 0]] }

theorem sRun_inv : sRun.Inv where
  memWf := by decide +kernel
  paramsWf := by decide +kernel
  rxPipe := by
    unfold pipeInv
    decide +kernel
  txPipe := by
    unfold pipeInv
    decide +kernel
  rxShort := by decide +kernel
  bdArmed := by
    unfold bdInv
    decide +kernel
  bdOther := by decide +kernel

theorem witness_StepKeepsTheInvariant : sRun.Inv ∧ ∃ t, step sRun = .next t := by
  refine ⟨sRun_inv, ?_⟩
  obtain ⟨t, h, -⟩ := nextIs_exists (o := step sRun) (p := fun _ => true) (by decide +kernel)
  exact ⟨t, h⟩
theorem witness_OnlyTheLastArmedDescriptorIsOwned :
    sBack.LastArmedOwned ∧ noneOwned .tx sBack ∧ noneOwned .rx sBack
    ∧ ∃ t, exec (.evOutRx .even 0) sBack = .next t ∧ (t.bdAt (bd0 .rx .odd)).own = true := by
  refine ⟨?_, ?_, ?_, ?_⟩
  · intro d pp
    cases d <;> cases pp <;> decide +kernel
  · unfold noneOwned
    decide +kernel
  · unfold noneOwned
    decide +kernel
  · obtain ⟨t, h, hb⟩ := nextIs_exists (o := exec (.evOutRx .even 0) sBack) (p := fun t => (t.bdAt (bd0 .rx .odd)).own)
      (by decide +kernel)
    exact ⟨t, h, hb⟩
theorem witness_OneDescriptorIsOwnedAtATime :
    isEnvironmentStep (.envIn none) = true ∧ sAddr.OneOwned ∧ ∃ t, exec (.envIn none) sAddr = .next t ∧ t.stage = .idle := by
  refine ⟨rfl, ⟨?_, ?_⟩, ?_⟩
  · intro d e pp qq
    cases d <;> cases e <;> cases pp <;> cases qq <;> decide +kernel
  · unfold noneOwned
    decide +kernel
  · obtain ⟨t, h, hb⟩ := nextIs_exists (o := exec (.envIn none) sAddr) (p := fun t => t.stage == .idle) (by decide +kernel)
    exact ⟨t, h, by simpa using hb⟩

/-- Vector F7's kind: a transfer with a callback in progress when the next SETUP comes. -/
theorem witness_SetupEmitsNoCallback :
    (Instr.getStatus ⟨0, 1, 0, 0, 2⟩).req?.isSome = true ∧ sTxMid.tx.callback = some 9 ∧ sTxMid.bad = none
    ∧ sTxMid.params.classTable = []
    ∧ ∃ t, exec (.getStatus ⟨0, 1, 0, 0, 2⟩) sTxMid = .next t ∧ t.bad = none ∧ t.ret ≠ .noStep := by
  refine ⟨rfl, by decide +kernel, by decide +kernel, by decide +kernel, ?_⟩
  obtain ⟨t, h, hb⟩ := nextIs_exists (o := exec (.getStatus ⟨0, 1, 0, 0, 2⟩) sTxMid)
    (p := fun t => t.bad == none && t.ret != .noStep) (by decide +kernel)
  exact ⟨t, h, by simpa using hb⟩
theorem witness_ConfigurationRoundTrip :
    sRun.Inv ∧ sRun.bad = none ∧ 1 ≤ (⟨0, 1, 0, 0, 1⟩ : ReqFields).length.toNat
    ∧ ∃ t u, exec (.setConfiguration ⟨0, 0, 0xFF, 0, 0⟩) sRun = .next t ∧ exec (.getConfiguration ⟨0, 1, 0, 0, 1⟩) t = .next u
        ∧ u.bad = none := by
  refine ⟨sRun_inv, by decide +kernel, by decide, ?_⟩
  obtain ⟨t, h, hb⟩ := nextIs_exists (o := exec (.setConfiguration ⟨0, 0, 0xFF, 0, 0⟩) sRun)
    (p := fun t => nextIs (exec (.getConfiguration ⟨0, 1, 0, 0, 1⟩) t) fun u => u.bad == none) (by decide +kernel)
  obtain ⟨u, hu, hb⟩ := nextIs_exists hb
  exact ⟨t, u, h, hu, by simpa using hb⟩
theorem witness_NonStoringStepsLeaveMemory :
    mayStore (.setAddress ⟨0, 0, 5, 0, 0⟩) = false ∧ ∃ t, exec (.setAddress ⟨0, 0, 5, 0, 0⟩) sSetup = .next t ∧ t.bad = none := by
  refine ⟨rfl, ?_⟩
  obtain ⟨t, h, hb⟩ := nextIs_exists (o := exec (.setAddress ⟨0, 0, 5, 0, 0⟩) sSetup) (p := fun t => t.bad == none)
    (by decide +kernel)
  exact ⟨t, h, by simpa using hb⟩

/-- The byte just above the scratch buffer, with a reply written into it; and the one after the last landed byte. -/
theorem witness_StoresStayInTheirBuffers :
    sBack.params.bufSizeOk = true
    ∧ ((sBack.scratch sBack.tx.pingpong).toNat + sBack.params.bufSize.toNat ≤ 0x1040
      ∧ ∃ t, exec (.getConfiguration ⟨0, 1, 0, 0, 1⟩) { sBack with devConfig := 7 } = .next t ∧ memGet t.mem 0x1000 = 7)
    ∧ ((sRxData.bdAt (bd0 .rx .odd)).addr.toNat + (10 : BitVec 16).toNat ≤ 0x500A
      ∧ ∃ t, exec (.envOut (some .odd) none 10 (some bytes10)) sRxData = .next t ∧ memGet t.mem 0x5009 = 9) := by
  refine ⟨by decide +kernel, ⟨by decide +kernel, ?_⟩, by decide +kernel, ?_⟩
  · obtain ⟨t, h, hb⟩ := nextIs_exists (o := exec (.getConfiguration ⟨0, 1, 0, 0, 1⟩) { sBack with devConfig := 7 })
      (p := fun t => memGet t.mem 0x1000 == 7) (by decide +kernel)
    exact ⟨t, h, by simpa using hb⟩
  · obtain ⟨t, h, hb⟩ := nextIs_exists (o := exec (.envOut (some .odd) none 10 (some bytes10)) sRxData)
      (p := fun t => memGet t.mem 0x5009 == 9) (by decide +kernel)
    exact ⟨t, h, by simpa using hb⟩
/-- The SETUP lands in the scratch buffer `SCRATCH[EVEN]`, eight bytes of it. -/
theorem witness_StoresStayInTheirBuffers_setup :
    (sR.bdAt (bd0 .rx .even)).addr.toNat + 8 ≤ 0x1040
    ∧ ∃ t, exec (.envSetup (some .even) ⟨0x80, 0x00, 1, 0, 0, 0, 2, 0⟩) sR = .next t ∧ memGet t.mem 0x1002 = 1 := by
  refine ⟨by decide +kernel, ?_⟩
  obtain ⟨t, h, hb⟩ := nextIs_exists (o := exec (.envSetup (some .even) ⟨0x80, 0x00, 1, 0, 0, 0, 2, 0⟩) sR)
    (p := fun t => memGet t.mem 0x1002 == 1) (by decide +kernel)
  exact ⟨t, h, by simpa using hb⟩

/-- A write that ends at the top of `MEM`, and one that would pass it. -/
theorem witness_MemoryReadsAndWrites :
    Memory.wf sR.mem = true ∧ (∃ t, memWrite 0xFFFFFFFE [1, 2] sR = .ok t)
    ∧ memSize < (0xFFFFFFFF : Addr).toNat + 2 ∧ (0xFFFFFFFF : Addr).toNat + 1 ≤ memSize
    ∧ memSize < (0xFFFFFFFF : Addr).toNat + [(1 : Byte), 2].length := by
  refine ⟨by decide +kernel, ⟨sR.setMem (memPutList sR.mem 0xFFFFFFFE [1, 2]), ?_⟩, by decide, by decide, by decide⟩
  exact if_pos (by decide)

/-- Vector T8: 128 of 200 bytes, three transactions. -/
theorem witness_TransferTakesTheStatedTransactions :
    sRun.Inv ∧ noneOwned .tx sRun ∧ (0x2000 : Addr).toNat + min (128 : Len).toNat (200 : Len).toNat < memSize
    ∧ (∃ t, beginTx 0x2000 128 200 none 0 sRun = .ok (t, 128)) ∧ chunkCount 128 200 64 = 3 := by
  refine ⟨sRun_inv, ?_, by decide, ⟨?_, ?_⟩⟩
  · unfold noneOwned
    decide +kernel
  · have h : (match beginTx 0x2000 128 200 none 0 sRun with
      | .ok (_, l) => l == 128
      | .error _ => false) = true := by decide +kernel
    cases hb : beginTx 0x2000 128 200 none 0 sRun with
    | error m => rw [hb] at h; cases h
    | ok r =>
      obtain ⟨t, l⟩ := r
      rw [hb] at h
      have hl : l = 128 := by simpa using h
      exact ⟨t, by rw [hl]⟩
  · decide

end Sys2Proof.Tests
end

section
/-! The machine's step by its oldest input (log 1): the fetch, then the meaning of the row the record decodes to. -/

namespace Sys2Proof.Machine

open Sys2Proof

/-- The fetch answers the oldest input and leaves the younger ones. -/
theorem fetch_of_inputs_cons {s : State} {x : Input} {rest : List Input} (h : s.inputs = x :: rest) :
    fetch s = some (x, s.setInputs rest) := by
  simp only [fetch, h]

/-- A record that decodes to `i` makes the step the meaning of `i`, at the state with that input taken. -/
theorem step_of_decode_ok {s : State} {record : List Byte} {rest : List Input} {i : Instr}
    (hin : s.inputs = .step record :: rest) (hdec : decode record = .ok i) : step s = exec i (s.setInputs rest) := by
  have hf : fetch s = some (.step record, s.setInputs rest) := fetch_of_inputs_cons hin
  simp only [step, hf, hdec]

/-- Settles O7: the fetch takes the record, and the decoder's answer picks `exec`'s branch of `step`. -/
theorem stepRunsTheDecodedInstruction : Obligations.StepRunsTheDecodedInstruction :=
  fun _ _ _ _ hin hdec => step_of_decode_ok hin hdec

end Sys2Proof.Machine
end

section
/-! What a step does to the directory and the pipes, said once: it takes descriptors back, and then it hands over at most one
endpoint-0 descriptor, in the slot of its pipe (20_memory.md R75, R76; 43_control_fsm.md R236, R237). -/

namespace Sys2Proof.Machine

open Sys2Proof

/-! ### Changes that hand over no descriptor -/

/-- A change of state that hands over no descriptor: each one is as before or not owned, and a pipe's slot is as before or the
pipe has no descriptor owned. It keeps the arguments and a mark that is there, the canonical form of memory, the pipe invariants
and that RX owes no packet. -/
structure Releases (s t : State) : Prop where
  bad : ∀ m, s.bad = some m → t.bad = some m
  params : t.params = s.params
  memWf : s.params.wf = true → Memory.wf s.mem = true → Memory.wf t.mem = true
  bdAt : ∀ i, t.bdAt i = s.bdAt i ∨ (t.bdAt i).own = false
  pingpong : ∀ d, (t.pipe d).pingpong = (s.pipe d).pingpong ∨ noneOwned d t
  pipe : ∀ d, pipeInv s.params.maxPacket (s.pipe d) → pipeInv s.params.maxPacket (t.pipe d)
  rxShort : s.rx.shortTransfer = false → t.rx.shortTransfer = false

/-- A descriptor that is not owned stays so. -/
theorem Releases.own_eq_false {s t : State} (h : Releases s t) {i : Fin 64} (ho : (s.bdAt i).own = false) :
    (t.bdAt i).own = false := by
  obtain he | he := h.bdAt i
  · rw [he]
    exact ho
  · exact he

theorem Releases.keeps_noneOwned {s t : State} (h : Releases s t) {d : Dir} (hn : noneOwned d s) : noneOwned d t :=
  ⟨h.own_eq_false hn.1, h.own_eq_false hn.2⟩

theorem Releases.trans {s t u : State} (h : Releases s t) (k : Releases t u) : Releases s u where
  bad m hm := k.bad m (h.bad m hm)
  params := k.params.trans h.params
  memWf hp hm := k.memWf (h.params ▸ hp) (h.memWf hp hm)
  bdAt i := by
    obtain he | ho := h.bdAt i
    · exact he ▸ k.bdAt i
    · exact .inr (k.own_eq_false ho)
  pingpong d := by
    obtain he | hn := h.pingpong d
    · exact he ▸ k.pingpong d
    · exact .inr (k.keeps_noneOwned hn)
  pipe d hp := by
    have hk := k.pipe d
    rw [h.params] at hk
    exact hk (h.pipe d hp)
  rxShort hs := k.rxShort (h.rxShort hs)

/-- A change that leaves both pipes alone. -/
theorem Releases.of_pipes_eq {s t : State} (hbad : ∀ m, s.bad = some m → t.bad = some m) (hparams : t.params = s.params)
    (hmem : s.params.wf = true → Memory.wf s.mem = true → Memory.wf t.mem = true)
    (hbd : ∀ i, t.bdAt i = s.bdAt i ∨ (t.bdAt i).own = false) (hrx : t.rx = s.rx) (htx : t.tx = s.tx) : Releases s t := by
  have hpipe : t.pipe = s.pipe := by
    funext d
    cases d
    · exact hrx
    · exact htx
  exact ⟨hbad, hparams, hmem, hbd, fun d => .inl (by rw [hpipe]), fun d hp => by rwa [hpipe], fun hs => by rwa [hrx]⟩

/-- A change that leaves the mark, the arguments, memory, the directory and both pipes alone. -/
theorem Releases.of_eq {s t : State} (hbad : t.bad = s.bad) (hparams : t.params = s.params) (hmem : t.mem = s.mem)
    (hbd : t.bd = s.bd) (hrx : t.rx = s.rx) (htx : t.tx = s.tx) : Releases s t :=
  .of_pipes_eq (fun _ h => hbad.trans h) hparams (fun _ h => hmem ▸ h) (fun i => .inl (State.bdAt_congr t s hbd i)) hrx htx

theorem Releases.refl (s : State) : Releases s s := .of_eq rfl rfl rfl rfl rfl rfl

theorem Quiet.releases {s t : State} (h : Quiet s t) : Releases s t :=
  .of_pipes_eq (fun _ hm => h.bad.trans hm) h.params h.memWf (fun i => .inl (State.bdAt_congr t s h.bd i)) h.rx h.tx

theorem releases_marked (m : BadMark) (s : State) : Releases s (marked m s) :=
  .of_pipes_eq (fun k hk => by simp [marked, hk]) rfl (fun _ h => h) (fun _ => .inl rfl) rfl rfl

theorem releases_setInputs (l : List Input) (s : State) : Releases s (s.setInputs l) :=
  .of_eq rfl rfl rfl rfl rfl rfl

/-- A change of the stage, the result and the pipes' toggles. -/
theorem releases_toggles (s : State) (g : Stage) (v : Ret) (a b : Toggle) :
    Releases s { s with stage := g, ret := v, rx := { s.rx with data01 := a }, tx := { s.tx with data01 := b } } where
  bad _ h := h
  params := rfl
  memWf _ h := h
  bdAt _ := .inl rfl
  pingpong d := by cases d <;> exact .inl rfl
  pipe d h := by cases d <;> exact h
  rxShort h := h

/-- A caller's store (20_memory.md R77 (c)): every address is inside `MEM`. -/
theorem releases_callerStore (a : Addr) (b : Byte) (s : State) : Releases s (callerStore a b s) :=
  .of_pipes_eq (fun _ h => h) rfl (fun _ h => memPut_wf s.mem a.toNat b h a.isLt) (fun _ => .inl rfl) rfl rfl

/-- A descriptor handed back (20_memory.md R76). -/
theorem releases_handedBack (i : Fin 64) (n : Nat) (tok : BitVec 4) (s : State) : Releases s (handedBack i n tok s) := by
  refine .of_pipes_eq (fun _ h => h) rfl (fun _ h => h) (fun j => ?_) rfl rfl
  rw [handedBack_bdAt]
  split
  · exact .inr rfl
  · exact .inl rfl

theorem releases_setupLanded {pp : Slot} {s : State} (b : SetupData) (h : (s.bdAt (bd0 .rx pp)).addr.toNat + 8 ≤ memSize) :
    Releases s (setupLanded pp b s) := by
  refine Releases.trans ?_ (releases_handedBack _ _ _ _)
  exact .of_pipes_eq (fun _ h => h) rfl (fun _ hm => memPutList_wf b.toList _ _ hm h) (fun _ => .inl rfl) rfl rfl

theorem releases_inTaken (pp : Slot) (s : State) : Releases s (inTaken pp s) := by
  refine Releases.trans ?_ (releases_handedBack _ _ _ _)
  exact .of_eq rfl rfl rfl rfl rfl rfl

theorem releases_outLanded {pp : Slot} {l : List Byte} {s : State} (k : Nat)
    (h : (s.bdAt (bd0 .rx pp)).addr.toNat + l.length ≤ memSize) : Releases s (outLanded pp l { s with fresh := k }) := by
  refine Releases.trans ?_ (releases_handedBack _ _ _ _)
  exact .of_pipes_eq (fun _ h => h) rfl (fun _ hm => memPutList_wf l _ _ hm h) (fun _ => .inl rfl) rfl rfl

theorem releases_releaseDiag (i : Fin 64) (tok : BitVec 4) (b : Bool) (k : Nat) (s : State) :
    Releases s (releaseDiag i tok b { s with fresh := k }) := by
  have hfresh : Releases s { s with fresh := k } := .of_eq rfl rfl rfl rfl rfl rfl
  unfold releaseDiag
  split
  · refine hfresh.trans (.of_pipes_eq (fun _ h => h) rfl (fun _ h => h) (fun j => ?_) rfl rfl)
    by_cases hj : i = j
    · subst hj
      exact .inr (by simp [handBack])
    · exact .inl (State.setBd_bdAt_ne _ _ _ _ hj)
  · exact hfresh

/-- The end of a TX transfer: no counter moves (41_tx_engine.md R177 (c)). -/
theorem releases_txFinished (s : State) : Releases s (txFinished s) where
  bad _ h := h
  params := rfl
  memWf _ h := h
  bdAt _ := .inl rfl
  pingpong d := by cases d <;> exact .inl rfl
  pipe d h := by cases d <;> exact h
  rxShort h := h

/-- The end of an RX transfer: the counted bytes had room (42_rx_engine.md R206). -/
theorem releases_rxFinished {r : Nat} {s : State} (hr : s.rx.pos.toNat + r ≤ s.rx.transferSize.toNat) :
    Releases s (rxFinished r s) where
  bad _ h := h
  params := rfl
  memWf _ h := h
  bdAt _ := .inl rfl
  pingpong d := by cases d <;> exact .inl rfl
  pipe d h := by
    cases d
    · exact ⟨(rxCount_toNat s r hr).trans_le hr, h.2⟩
    · exact h
  rxShort h := h

/-- The cancellation of a SETUP (43_control_fsm.md R232, R236). -/
theorem releases_requestState (r : ControlReq) (s : State) : Releases s (requestState r s) where
  bad _ h := h
  params := rfl
  memWf _ h := h
  bdAt i := by
    rw [requestState_bdAt]
    split
    · exact .inr rfl
    · exact .inl rfl
  pingpong d := by cases d <;> exact .inl rfl
  pipe d h := by cases d <;> exact ⟨Nat.le_refl _, h.2⟩
  rxShort _ := rfl

@[simp] theorem powerOn_bdAt (p : Params) (i : Fin 64) : (State.powerOn p).bdAt i = Bd.powerOn := by
  simp [State.powerOn, State.bdAt]

theorem powerOn_noneOwned (p : Params) (d : Dir) : noneOwned d (State.powerOn p) := by
  simp [noneOwned, Bd.powerOn]

theorem powerOn_pipeInv (m : Len) : pipeInv m (Pipe.powerOn m) := ⟨Nat.le_refl _, rfl⟩

/-- The reset step: nothing owned, memory empty, the mark kept (70_reset_and_hazards.md R400). -/
theorem releases_powerOn (s : State) :
    Releases s { State.powerOn s.params with bad := s.bad, inputs := s.inputs, fresh := s.fresh } where
  bad _ h := h
  params := rfl
  memWf _ _ := rfl
  bdAt i := .inr (congrArg Bd.own (powerOn_bdAt s.params i))
  pingpong d := .inr (powerOn_noneOwned s.params d)
  pipe d _ := by cases d <;> exact powerOn_pipeInv _
  rxShort _ := rfl

theorem busResetFields_noneOwned (d : Dir) (s : State) : noneOwned d (busResetFields s) := by
  simp [noneOwned, busResetFields, resetPipe]

/-- A bus reset: every descriptor released, both pipes as after power-on (70_reset_and_hazards.md R402). -/
theorem releases_busResetFields (s : State) : Releases s (busResetFields s) where
  bad _ h := h
  params := rfl
  memWf _ h := h
  bdAt i := .inr (by simp [busResetFields, resetPipe])
  pingpong d := .inr (busResetFields_noneOwned d s)
  pipe d h := by cases d <;> exact h.2 ▸ powerOn_pipeInv _
  rxShort _ := rfl

/-! ### Handing over one descriptor -/

/-- One endpoint-0 descriptor of direction `d` armed, the one of the pipe's slot, with at most the pipe's packet size; the slot
is flipped (41_tx_engine.md R174, 42_rx_engine.md R203). -/
structure Arms (d : Dir) (s t : State) : Prop where
  bad : t.bad = s.bad
  params : t.params = s.params
  mem : t.mem = s.mem
  bdAt : ∃ a n g, n ≤ (s.pipe d).epMaxsize.toNat ∧
    ∀ j, t.bdAt j = if j = bd0 d (s.pipe d).pingpong then armedBd a n g (s.bdAt j) else s.bdAt j
  pingpong : (t.pipe d).pingpong = flipSlot (s.pipe d).pingpong
  otherPipe : t.pipe (flipDir d) = s.pipe (flipDir d)
  pipe : ∀ m, pipeInv m (s.pipe d) → pipeInv m (t.pipe d)
  rxShort : s.rx.shortTransfer = false → t.rx.shortTransfer = false

/-- An arming leaves every other pipe alone. -/
theorem Arms.pipe_of_ne {d e : Dir} {s t : State} (h : Arms d s t) (he : e ≠ d) : t.pipe e = s.pipe e := by
  have hflip : e = flipDir d := by
    revert he
    cases d <;> cases e <;> decide
  rw [hflip]
  exact h.otherPipe

theorem toNat_ofNat_le {w k n : Nat} (h : k ≤ n) : (BitVec.ofNat w k).toNat ≤ n := by
  rw [BitVec.toNat_ofNat]
  exact (Nat.mod_le _ _).trans h

theorem arms_armedTx (buf : Addr) (len req : Len) (cb : Option CallbackId) (ctx : Addr) (s : State) :
    Arms .tx s (armedTx buf len req cb ctx s) where
  bad := rfl
  params := rfl
  mem := rfl
  bdAt := ⟨_, _, _, Nat.min_le_right _ _, armedTx_bdAt buf len req cb ctx s⟩
  pingpong := rfl
  otherPipe := rfl
  pipe _ h := ⟨toNat_ofNat_le (Nat.min_le_left _ _), h.2⟩
  rxShort h := h

theorem arms_armedRx (buf : Addr) (max : Len) (cb : Option CallbackId) (ctx : Addr) (s : State) :
    Arms .rx s (armedRx buf max cb ctx s) where
  bad := rfl
  params := rfl
  mem := rfl
  bdAt := ⟨_, _, _, Nat.min_le_right _ _, armedRx_bdAt buf max cb ctx s⟩
  pingpong := rfl
  otherPipe := rfl
  pipe _ h := ⟨Nat.zero_le _, h.2⟩
  rxShort _ := rfl

theorem arms_txNextChunk (s : State) : Arms .tx s (txNextChunk s) where
  bad := rfl
  params := rfl
  mem := rfl
  bdAt := ⟨_, _, _, Nat.min_le_right _ _, txNextChunk_bdAt s⟩
  pingpong := rfl
  otherPipe := rfl
  pipe _ h := by
    obtain ⟨hpos, hmax⟩ := h
    refine ⟨toNat_ofNat_le ?_, hmax⟩
    simp only [State.pipe_tx] at hpos
    show _ ≤ s.tx.transferSize.toNat
    omega
  rxShort h := h

theorem arms_rxNextChunk {r : Nat} {s : State} (hr : s.rx.pos.toNat + r ≤ s.rx.transferSize.toNat) :
    Arms .rx s (rxNextChunk r s) where
  bad := rfl
  params := rfl
  mem := rfl
  bdAt := ⟨_, _, _, Nat.min_le_right _ _, rxNextChunk_bdAt r s⟩
  pingpong := rfl
  otherPipe := rfl
  pipe _ h := ⟨toNat_ofNat_le hr, h.2⟩
  rxShort h := h

/-! ### A whole step -/

/-- Descriptors are taken back, and then at most one is handed over. `N` is what it takes for none of that direction to be owned
by then; `Moves False` leaves that open. -/
def Moves (N : Prop) (s t : State) : Prop :=
  Releases s t ∨ ∃ d u, Releases s u ∧ Arms d u t ∧ (N → noneOwned d u)

theorem Moves.mono {M N : Prop} {s t : State} (h : Moves N s t) (hMN : M → N) : Moves M s t := by
  obtain hr | ⟨d, u, hr, ha, hn⟩ := h
  · exact .inl hr
  · exact .inr ⟨d, u, hr, ha, fun m => hn (hMN m)⟩

theorem Moves.after_releases {N : Prop} {s t u : State} (k : Moves N t u) (h : Releases s t) : Moves N s u := by
  obtain hr | ⟨d, v, hr, ha, hn⟩ := k
  · exact .inl (h.trans hr)
  · exact .inr ⟨d, v, h.trans hr, ha, hn⟩

/-- The stage and the returned result play no part. -/
theorem Moves.withStageRet {N : Prop} {s t : State} (h : Moves N s t) (g : Stage) (v : Ret) :
    Moves N s { t with stage := g, ret := v } := by
  obtain hr | ⟨d, u, hr, ha, hn⟩ := h
  · exact .inl (hr.trans (releases_toggles t g v t.rx.data01 t.tx.data01))
  · refine .inr ⟨d, u, hr, ?_, hn⟩
    exact ⟨ha.bad, ha.params, ha.mem, ha.bdAt, by cases d <;> exact ha.pingpong, by cases d <;> exact ha.otherPipe,
      by cases d <;> exact ha.pipe, ha.rxShort⟩

theorem Moves.returned {N : Prop} {s t : State} (h : Moves N s t) (v : Ret) : Moves N s (returned v t) :=
  h.withStageRet t.stage v

/-- A release, then an arming of a direction of which no descriptor is owned. -/
theorem Releases.moves {N : Prop} {d : Dir} {s u t : State} (h : Releases s u) (ha : Arms d u t) (hn : noneOwned d u) :
    Moves N s t :=
  .inr ⟨d, u, h, ha, fun _ => hn⟩

theorem Releases.moves_setupArmed {N : Prop} {s u : State} (h : Releases s u) (hn : noneOwned .rx u) :
    Moves N s (setupArmed u) :=
  (h.trans (releases_toggles u u.stage u.ret .data0 .data1)).moves (arms_armedRx _ _ _ _ _) hn

theorem Releases.moves_statusInState {N : Prop} {s u : State} (h : Releases s u) (hn : noneOwned .tx u) :
    Moves N s (statusInState u) :=
  (h.trans (releases_toggles u .status u.ret u.rx.data01 .data1)).moves (arms_armedTx _ _ _ _ _ _) hn

theorem Releases.moves_statusOutState {N : Prop} {s u : State} (h : Releases s u) (hn : noneOwned .rx u) :
    Moves N s (statusOutState u) :=
  (h.trans (releases_toggles u .status u.ret .data1 u.tx.data01)).moves (arms_armedRx _ _ _ _ _) hn

theorem Releases.moves_protocolErrorState {N : Prop} {s u : State} (h : Releases s u) (hn : noneOwned .rx u) :
    Moves N s (protocolErrorState u) := by
  refine Releases.moves_setupArmed (h.trans ?_) hn
  exact .of_eq rfl rfl rfl rfl rfl rfl

theorem Releases.moves_statusDoneState {N : Prop} {s u : State} (h : Releases s u) (hn : noneOwned .rx u) :
    Moves N s (statusDoneState u) := by
  unfold statusDoneState
  split
  · refine Releases.moves_setupArmed (h.trans ?_) hn
    exact .of_eq rfl rfl rfl rfl rfl rfl
  · refine Releases.moves_setupArmed (h.trans ?_) hn
    exact .of_eq rfl rfl rfl rfl rfl rfl

/-- `OnData` hands over one descriptor; another than the next chunk's comes from `begin_tx` or `begin_rx`, which check that none
of its direction is owned (43_control_fsm.md R237). -/
theorem moves_onData {d : Dir} {i : Fin 64} {s t : State} (h : onData d i s = .ok t) : Moves (noneOwned d s) s t := by
  obtain ⟨-, hn, rfl⟩ | ⟨rfl, -, -, -, -, rfl⟩ | ⟨rfl, -, -, hn, rfl⟩ | ⟨rfl, -, -, hn, rfl⟩ | ⟨rfl, hr, -, -, -, -, rfl⟩ |
    ⟨rfl, hr, -, -, hn, rfl⟩ | ⟨rfl, hr, -, -, hn, rfl⟩ := onData_ok h
  · exact (Releases.refl s).moves_protocolErrorState hn
  · exact .inr ⟨.tx, s, .refl s, arms_txNextChunk s, id⟩
  · exact (releases_txFinished s).moves_statusOutState hn
  · exact (releases_txFinished s).moves_statusDoneState hn
  · exact .inr ⟨.rx, s, .refl s, arms_rxNextChunk hr, id⟩
  · exact (releases_rxFinished hr).moves_statusInState hn
  · exact (releases_rxFinished hr).moves_statusDoneState hn

/-- A request handler queues at most one transfer (44_std_requests.md R270, R290). -/
theorem Handled.moves {N : Prop} {s t : State} {o : ReqOutcome} (h : Handled s t o) : Moves N s t := by
  obtain ⟨q, hq, ⟨rfl, -⟩ | ⟨-, ⟨_, _, _, _, _, hn, rfl⟩ | ⟨_, _, _, _, hn, rfl⟩⟩⟩ := h
  · exact .inl hq.releases
  · exact hq.releases.moves (arms_armedTx _ _ _ _ _ _) hn
  · exact hq.releases.moves (arms_armedRx _ _ _ _ _) hn

/-- A handler that queues no transfer hands over no descriptor. -/
theorem Handled.releases {s t : State} {o : ReqOutcome} (h : Handled s t o) (ho : o ≠ .dataQueued) : Releases s t := by
  obtain ⟨q, hq, ⟨rfl, -⟩ | ⟨rfl, -⟩⟩ := h
  · exact hq.releases
  · exact absurd rfl ho

/-- The SETUP step hands over at most one descriptor: the handler's, or that of what follows its outcome
(43_control_fsm.md R236). -/
theorem moves_runRequest {N : Prop} {r : ControlReq} {s t : State} {o : ReqOutcome}
    (h : runRequest handle r s = .ok (t, o)) : Moves N s t := by
  obtain ⟨u, hu, hcase⟩ := runRequest_ok h
  have hopen := releases_requestState r s
  obtain ⟨rfl, -, hn, rfl⟩ | ⟨rfl, -, hn, rfl⟩ | ⟨rfl, rfl⟩ | ⟨rfl, hn, rfl⟩ := hcase
  · exact (hopen.trans (hu.releases (by decide))).moves_statusInState hn
  · exact (hopen.trans (hu.releases (by decide))).moves_statusOutState hn
  · exact (hu.moves.after_releases hopen).withStageRet .data u.ret
  · exact (hopen.trans (hu.releases (by decide))).moves_protocolErrorState hn

theorem moves_onSetup {N : Prop} {i : Fin 64} {s t : State} (h : onSetup i s = .ok t) : Moves N s t := by
  obtain ⟨b, o, -, hrun⟩ := onSetup_ok h
  exact moves_runRequest hrun

/-- A raw completion event comes after the environment's completion: no descriptor of its direction is owned any more. -/
def CompletedBefore (i : Instr) (s : State) : Prop :=
  (∀ pp rsv, i = .evInTx pp rsv → noneOwned .tx s) ∧ (∀ pp rsv, i = .evOutRx pp rsv → noneOwned .rx s)

/-- Handing back the owned descriptor of a direction leaves none owned: by 10_state.md R39 (b) the other slot's is not. -/
theorem State.LastArmedOwned.noneOwned_handedBack {s : State} (h : s.LastArmedOwned) {d : Dir} {x : Slot}
    (ho : (s.bdAt (bd0 d x)).own = true) (n : Nat) (tok : BitVec 4) : noneOwned d (handedBack (bd0 d x) n tok s) := by
  have hall : ∀ y, ((handedBack (bd0 d x) n tok s).bdAt (bd0 d y)).own = false := by
    intro y
    rw [handedBack_bdAt]
    split
    · rfl
    · next hne =>
      refine Bool.eq_false_iff.2 fun hy => hne ?_
      rw [h d y hy, ← h d x ho]
  exact ⟨hall .even, hall .odd⟩

/-- What every step of `exec` does to the directory and the pipes. The two premises serve the engines' next chunks, which are armed
without a look at the direction's other slot. -/
theorem moves_of_exec {i : Instr} {s t : State} (h : exec i s = .next t) :
    Moves (s.LastArmedOwned ∧ CompletedBefore i s) s t := by
  cases ran_of_exec h with
  | fails _ _ m => exact .inl (releases_marked m s)
  | same _ _ v _ => exact Moves.returned (.inl (.refl s)) v
  | rst => exact .inl (releases_powerOn s)
  | bus => exact ((releases_busResetFields s).moves_setupArmed (busResetFields_noneOwned .rx s)).returned .nothing
  | row _ _ r t o _ hrun => exact (moves_runRequest hrun).returned _
  | evS _ t pp rsv _ hset => exact (moves_onSetup hset).returned .nothing
  | evI _ t pp rsv _ hdata => exact ((moves_onData hdata).returned .nothing).mono fun hN => hN.2.1 pp rsv rfl
  | evO _ t pp rsv _ hdata => exact ((moves_onData hdata).returned .nothing).mono fun hN => hN.2.2 pp rsv rfl
  | tx _ _ buf len req cb ctx v hn _ => exact ((Releases.refl s).moves (arms_armedTx _ _ _ _ _ _) hn).returned v
  | rx _ _ buf max cb ctx v hn _ => exact ((Releases.refl s).moves (arms_armedRx _ _ _ _ _) hn).returned v
  | small _ q src len v a l r hq hn => exact (hq.releases.moves (arms_armedTx _ _ _ _ _ _) hn).returned v
  | stall => exact .inl (.of_eq rfl rfl rfl rfl rfl rfl)
  | envS _ pp x b t _ ho hfit hset =>
    exact ((moves_onSetup hset).after_releases (releases_setupLanded b hfit)).returned .nothing
  | envI _ pp x t ho hdata =>
    refine (((moves_onData hdata).after_releases (releases_inTaken x s)).returned .nothing).mono fun ⟨hlast, _⟩ => ?_
    exact State.LastArmedOwned.noneOwned_handedBack (s := { s with out := _ }) hlast ho _ _
  | envO _ pp pid n bytes x t l k _ ho hlen hle hfit hdata =>
    refine (((moves_onData hdata).after_releases (releases_outLanded k (hlen ▸ hfit))).returned .nothing).mono
      fun ⟨hlast, _⟩ => ?_
    exact State.LastArmedOwned.noneOwned_handedBack (s := { s with fresh := k, mem := _ }) hlast ho _ _
  | envD _ tok d pp rel x b k => exact Moves.returned (.inl (releases_releaseDiag _ _ b k s)) .nothing

/-- With no input there is nothing to fetch. -/
theorem fetch_of_inputs_nil {s : State} (h : s.inputs = []) : fetch s = none := by
  simp only [fetch, h]

/-- What every step of the machine does to the directory and the pipes. -/
theorem moves_of_step {s t : State} (h : step s = .next t) : Moves False s t := by
  cases hin : s.inputs with
  | nil =>
    simp only [step, fetch_of_inputs_nil hin] at h
    cases h
    exact .inl (.refl s)
  | cons x rest =>
    refine Moves.after_releases ?_ (releases_setInputs rest s)
    cases x with
    | callerWrite a b =>
      simp only [step, fetch_of_inputs_cons hin] at h
      cases h
      exact .inl (releases_callerStore a b _)
    | step record =>
      cases hdec : decode record with
      | error e =>
        simp only [step, fetch_of_inputs_cons hin, hdec] at h
        cases h
      | ok i =>
        rw [step_of_decode_ok hin hdec] at h
        exact (moves_of_exec h).mono False.elim

end Sys2Proof.Machine
end

section
/-! The invariants of 10_state.md: what a release and an arming keep, hence what every step keeps (R38, R39, R43, R46, R50). -/

namespace Sys2Proof.Machine

open Sys2Proof

/-! ### The mark -/

theorem Moves.bad_eq_some {N : Prop} {s t : State} {m : BadMark} (h : Moves N s t) (hm : s.bad = some m) : t.bad = some m := by
  obtain hr | ⟨d, u, hr, ha, -⟩ := h
  · exact hr.bad m hm
  · exact ha.bad.trans (hr.bad m hm)

/-- Settles O48: neither a release nor an arming changes a mark that is there. -/
theorem theMarkIsNeverCleared : Obligations.TheMarkIsNeverCleared :=
  ⟨rfl, fun _ _ _ hm h => (moves_of_step h).bad_eq_some hm⟩

/-! ### The invariant of the state -/

theorem Releases.inv {s t : State} (h : Releases s t) (hs : s.Inv) : t.Inv where
  memWf := h.memWf hs.paramsWf hs.memWf
  paramsWf := h.params ▸ hs.paramsWf
  rxPipe := h.params ▸ h.pipe .rx hs.rxPipe
  txPipe := h.params ▸ h.pipe .tx hs.txPipe
  rxShort := h.rxShort hs.rxShort
  bdArmed i := by
    rw [h.params]
    obtain he | ho := h.bdAt i
    · rw [he]
      exact hs.bdArmed i
    · exact fun hown => absurd hown (by simp [ho])
  bdOther i hi := h.own_eq_false (hs.bdOther i hi)

/-- Every pipe of a state with the invariant has the arguments' packet size and its counters in order. -/
theorem State.Inv.pipeInv_pipe {s : State} (h : s.Inv) (d : Dir) : pipeInv s.params.maxPacket (s.pipe d) := by
  cases d
  · exact h.rxPipe
  · exact h.txPipe

theorem Arms.keeps_pipeInv {d : Dir} {s t : State} (h : Arms d s t) {m : Len} (hs : ∀ e, pipeInv m (s.pipe e)) (e : Dir) :
    pipeInv m (t.pipe e) := by
  by_cases he : e = d
  · subst he
    exact h.pipe m (hs e)
  · rw [h.pipe_of_ne he]
    exact hs e

theorem armedBd_bdInv {a : Addr} {n : Nat} {g : Toggle} {b : Bd} {m : Len} (h : n ≤ m.toNat) : bdInv m (armedBd a n g b) :=
  fun _ => ⟨rfl, rfl, toNat_ofNat_le h⟩

theorem Arms.inv {d : Dir} {s t : State} (h : Arms d s t) (hs : s.Inv) : t.Inv := by
  have hpipe := h.keeps_pipeInv hs.pipeInv_pipe
  obtain ⟨a, n, g, hn, hbd⟩ := h.bdAt
  rw [(hs.pipeInv_pipe d).2] at hn
  exact
    { memWf := h.mem ▸ hs.memWf
      paramsWf := h.params ▸ hs.paramsWf
      rxPipe := h.params ▸ hpipe .rx
      txPipe := h.params ▸ hpipe .tx
      rxShort := h.rxShort hs.rxShort
      bdArmed := fun i => by
        rw [h.params, hbd]
        split
        · exact armedBd_bdInv hn
        · exact hs.bdArmed i
      bdOther := fun i hi => by
        have hne : i ≠ bd0 d (s.pipe d).pingpong := fun e => by
          have := bd0_lt d (s.pipe d).pingpong
          omega
        rw [hbd, if_neg hne]
        exact hs.bdOther i hi }

theorem Moves.inv {N : Prop} {s t : State} (h : Moves N s t) (hs : s.Inv) : t.Inv := by
  obtain hr | ⟨d, u, hr, ha, -⟩ := h
  · exact hr.inv hs
  · exact ha.inv (hr.inv hs)

/-- Settles O50: a release keeps the invariant, and so does arming the slot of a pipe. -/
theorem stepKeepsTheInvariant : Obligations.StepKeepsTheInvariant :=
  fun _ _ hs h => (moves_of_step h).inv hs

/-! ### The descriptor armed last -/

theorem Releases.lastArmedOwned {s t : State} (h : Releases s t) (hs : s.LastArmedOwned) : t.LastArmedOwned := by
  intro d pp ho
  have hso : (s.bdAt (bd0 d pp)).own = true := by
    obtain he | hf := h.bdAt (bd0 d pp)
    · exact he ▸ ho
    · exact absurd ho (by simp [hf])
  obtain he | hn := h.pingpong d
  · rw [he]
    exact hs d pp hso
  · exact absurd ho (by simp [noneOwned_slot hn pp])

/-- Arming a direction of which nothing is owned: the armed descriptor is the only owned one, in the slot before the flip. -/
theorem Arms.lastArmedOwned {d : Dir} {s t : State} (h : Arms d s t) (hn : noneOwned d s) (hs : s.LastArmedOwned) :
    t.LastArmedOwned := by
  obtain ⟨a, n, g, -, hbd⟩ := h.bdAt
  intro e pp ho
  by_cases hslot : bd0 e pp = bd0 d (s.pipe d).pingpong
  · obtain ⟨rfl, rfl⟩ := bd0_injective _ _ _ _ hslot
    rw [h.pingpong, flipSlot_flipSlot]
  · rw [hbd, if_neg hslot] at ho
    have hed : e ≠ d := by
      rintro rfl
      exact absurd ho (by simp [noneOwned_slot hn pp])
    rw [h.pipe_of_ne hed]
    exact hs e pp ho

theorem Moves.lastArmedOwned {N : Prop} {s t : State} (h : Moves N s t) (hN : N) (hs : s.LastArmedOwned) :
    t.LastArmedOwned := by
  obtain hr | ⟨d, u, hr, ha, hn⟩ := h
  · exact hr.lastArmedOwned hs
  · exact ha.lastArmedOwned (hn hN) (hr.lastArmedOwned hs)

/-- Settles O52: a step arms a direction only when none of its descriptors is owned, and the slot armed is the one before the flip. -/
theorem onlyTheLastArmedDescriptorIsOwned : Obligations.OnlyTheLastArmedDescriptorIsOwned :=
  fun _ _ _ hs hin hout h => (moves_of_exec h).lastArmedOwned ⟨hs, hin, hout⟩ hs

/-! ### Power-on -/

/-- Settles O9: each value stands in the definition; the 64 descriptors are copies of one. -/
theorem resetValues : Obligations.ResetValues := by
  refine ⟨rfl, rfl, rfl, rfl, rfl, rfl, rfl, ?_, fun i => ?_, rfl, rfl⟩
  · simp [State.reset, State.powerOn, Pipe.powerOn]
  · rw [State.reset, powerOn_bdAt]
    rfl

theorem powerOn_inv {p : Params} (h : p.wf = true) : (State.powerOn p).Inv where
  memWf := rfl
  paramsWf := h
  rxPipe := powerOn_pipeInv _
  txPipe := powerOn_pipeInv _
  rxShort := rfl
  bdArmed i := by simp [bdInv, Bd.powerOn]
  bdOther i _ := by simp [Bd.powerOn]

theorem powerOn_lastArmedOwned (p : Params) : (State.powerOn p).LastArmedOwned := by
  intro d pp ho
  simp [Bd.powerOn] at ho

theorem powerOn_oneOwned (p : Params) : (State.powerOn p).OneOwned := by
  refine ⟨fun d e pp qq ho => ?_, fun _ => powerOn_noneOwned p .tx⟩
  simp [Bd.powerOn] at ho

/-- Settles O51: after power-on no descriptor is owned, and the default arguments are legal. -/
theorem resetMeetsTheInvariants : Obligations.ResetMeetsTheInvariants :=
  ⟨powerOn_inv (by decide), powerOn_lastArmedOwned _, powerOn_oneOwned _⟩

end Sys2Proof.Machine
end

section
/-! The memory laws over ranges of bytes (20_memory.md R71), and which steps leave memory as it was (R84). -/

namespace Sys2Proof.Machine

open Sys2Proof

/-! ### Steps whose next input is no row (logs 1, 2, 20) -/

/-- A caller's store runs at the state with that input taken. -/
theorem step_of_callerWrite {s : State} {a : Addr} {b : Byte} {rest : List Input}
    (hin : s.inputs = .callerWrite a b :: rest) : step s = .next (callerStore a b (s.setInputs rest)) := by
  simp only [step, fetch_of_inputs_cons hin]

theorem step_of_decode_error {s : State} {record : List Byte} {rest : List Input} {e : DecodeError}
    (hin : s.inputs = .step record :: rest) (hdec : decode record = .error e) :
    step s = .refused (.undecodable e) := by
  simp only [step, fetch_of_inputs_cons hin, hdec]

/-- Settles O8: the three answers of `step` other than an `exec`, by what the fetch and the decoder answer. -/
theorem stepWithoutARow : Obligations.StepWithoutARow := by
  refine ⟨fun s hin => ?_, fun s a b rest hin => step_of_callerWrite hin, fun s record rest e hin hdec =>
    step_of_decode_error hin hdec⟩
  simp only [step, fetch_of_inputs_nil hin]

/-! ### Ranges of memory (20_memory.md R71) -/

theorem memGetList_eq_map (m : Memory) (a n : Nat) :
    memGetList m a n = (List.range n).map fun k => memGet m (a + k) := by
  refine List.ext_getElem (by simp) fun k hk _ => ?_
  rw [memGetList_getElem m a n k hk]
  simp

/-- A range stored reads back. -/
theorem memGetList_memPutList_same (l : List Byte) (m : Memory) (a : Nat) (h : Memory.wf m = true)
    (ha : a + l.length ≤ memSize) : memGetList (memPutList m a l) a l.length = l := by
  refine List.ext_getElem (memGetList_length _ _ _) fun k hk hk' => ?_
  rw [memGetList_getElem _ _ _ _ hk]
  exact memGet_memPutList_inside l m a k h ha hk'

/-- A range that does not meet the stored one reads as before. -/
theorem memGetList_memPutList_disjoint (l : List Byte) (m : Memory) (a c n : Nat)
    (h : c + n ≤ a ∨ a + l.length ≤ c) : memGetList (memPutList m a l) c n = memGetList m c n := by
  rw [memGetList_eq_map, memGetList_eq_map]
  refine List.map_congr_left fun k hk => memGet_memPutList_outside l m a (c + k) ?_
  have hkn := List.mem_range.1 hk
  omega

theorem memRead_of_le {a : Addr} {n : Nat} (s : State) (h : a.toNat + n ≤ memSize) :
    memRead a n s = .ok (memGetList s.mem a.toNat n) := if_pos h

theorem memRead_past_top {a : Addr} {n : Nat} (s : State) (h : memSize < a.toNat + n) :
    memRead a n s = .error (.fault .r71) := if_neg (Nat.not_le.2 h)

theorem memWrite_past_top {a : Addr} {l : List Byte} (s : State) (h : memSize < a.toNat + l.length) :
    memWrite a l s = .error (.fault .r71) := if_neg (Nat.not_le.2 h)

/-- `MemRead` sees of the state only the bytes of its range. -/
theorem memRead_congr {a : Addr} {n : Nat} {s t : State} (h : memGetList t.mem a.toNat n = memGetList s.mem a.toNat n) :
    memRead a n t = memRead a n s := by
  simp only [memRead, h]

/-- No access of length zero reaches past the top. -/
theorem memRead_zero (a : Addr) (s : State) : memRead a 0 s = .ok [] := memRead_of_le s a.isLt.le

theorem memWrite_nil (a : Addr) (s : State) : memWrite a [] s = .ok s :=
  (memWrite_ok_iff a [] s s).2 ⟨a.isLt.le, rfl⟩

/-- Settles O58: `MemWrite` stores the list at the range, and `MemRead` sees only its own range. -/
theorem memoryReadsAndWrites : Obligations.MemoryReadsAndWrites := by
  refine ⟨fun a l s t hwf hw => ?_, fun a s => ⟨memRead_zero a s, memWrite_nil a s⟩, fun a l n s =>
    ⟨memRead_past_top s, fun hn => ?_, memWrite_past_top s⟩⟩
  · obtain ⟨hfit, rfl⟩ := (memWrite_ok_iff a l s t).1 hw
    refine ⟨memPutList_wf l s.mem a.toNat hwf hfit, ?_, fun c n hdisj => ?_⟩
    · rw [memRead_of_le _ hfit]
      exact congrArg _ (memGetList_memPutList_same l s.mem a.toNat hwf hfit)
    · exact memRead_congr (memGetList_memPutList_disjoint l s.mem a.toNat c.toNat n hdisj)
  · rw [memRead_of_le s hn, memGetList_eq_map]

/-! ### What leaves memory as it was: the engines and the control state machine (41_tx_engine.md R178, 42_rx_engine.md R208) -/

@[simp] theorem statusDoneState_mem (s : State) : (statusDoneState s).mem = s.mem := by
  unfold statusDoneState
  split <;> rfl

theorem releaseDiag_mem (i : Fin 64) (tok : BitVec 4) (rel : Bool) (s : State) :
    (releaseDiag i tok rel s).mem = s.mem := by
  unfold releaseDiag
  split <;> rfl

theorem onData_mem {d : Dir} {i : Fin 64} {s t : State} (h : onData d i s = .ok t) : t.mem = s.mem := by
  obtain ⟨-, -, rfl⟩ | ⟨-, -, -, -, -, rfl⟩ | ⟨-, -, -, -, rfl⟩ | ⟨-, -, -, -, rfl⟩ | ⟨-, -, -, -, -, -, rfl⟩ |
    ⟨-, -, -, -, -, rfl⟩ | ⟨-, -, -, -, -, rfl⟩ := onData_ok h
  · rfl
  · rfl
  · rfl
  · exact statusDoneState_mem (txFinished s)
  · rfl
  · rfl
  · exact statusDoneState_mem (rxFinished _ s)

theorem enterStatus_mem {d : Dir} {s t : State} (h : enterStatus d s = .ok t) : t.mem = s.mem := by
  cases d with
  | tx =>
    obtain ⟨-, rfl⟩ := enterStatus_tx_ok h
    rfl
  | rx =>
    obtain ⟨-, rfl⟩ := enterStatus_rx_ok h
    rfl

theorem continueRequest_mem {r : ControlReq} {o : ReqOutcome} {s t : State} (h : continueRequest r o s = .ok t) :
    t.mem = s.mem := by
  cases o with
  | noData => exact enterStatus_mem h
  | dataQueued =>
    cases h
    rfl
  | error =>
    obtain ⟨-, rfl⟩ := protocolError_ok h
    rfl

/-! ### Request rows with a handler that stores nothing (44_std_requests.md) -/

/-- A handler that leaves memory as it was, whatever it answers. -/
def HandlerKeepsMem (h : ControlReq → State → Res (State × ReqOutcome)) : Prop :=
  ∀ (r : ControlReq) (s t : State) (o : ReqOutcome), h r s = .ok (t, o) → t.mem = s.mem

/-- The rest of the SETUP step stores nothing (43_control_fsm.md R236). -/
theorem HandlerKeepsMem.runRequest_mem {h : ControlReq → State → Res (State × ReqOutcome)} (hk : HandlerKeepsMem h)
    {r : ControlReq} {s t : State} {o : ReqOutcome} (hrun : runRequest h r s = .ok (t, o)) : t.mem = s.mem := by
  rw [runRequest, openRequest_eq] at hrun
  split at hrun
  · cases hrun
  · next u o' hu =>
    split at hrun
    · cases hrun
    · next v hv =>
      cases hrun
      exact (continueRequest_mem hv).trans (hk r (requestState r s) u o hu)

/-- A row of such a handler leaves memory as it was; so does the mark. -/
theorem HandlerKeepsMem.requestStep_mem {h : ControlReq → State → Res (State × ReqOutcome)} (hk : HandlerKeepsMem h)
    {r : ControlReq} {s t : State} (hstep : requestStep h r s = .next t) : t.mem = s.mem := by
  rw [requestStep] at hstep
  cases hrun : runRequest h r s with
  | error m =>
    rw [hrun, Except.map, finish_error] at hstep
    cases hstep
    rfl
  | ok p =>
    rw [hrun, Except.map, finish_ok] at hstep
    cases hstep
    exact hk.runRequest_mem (t := p.1) hrun

/-- A handler that answers without a change of state. -/
theorem handlerKeepsMem_const (o : ReqOutcome) : HandlerKeepsMem fun _ s => .ok (s, o) := by
  intro r s t o' h
  cases h
  rfl

theorem handlerKeepsMem_setAddress : HandlerKeepsMem setAddress := by
  intro r s t o h
  cases h
  rfl

theorem handlerKeepsMem_setConfiguration : HandlerKeepsMem setConfiguration := by
  intro r s t o h
  cases h
  rfl

/-- GET_DESCRIPTOR sends the collaborator's bytes in place (44_std_requests.md R275). -/
theorem handlerKeepsMem_getDescriptor : HandlerKeepsMem getDescriptor := by
  intro r s t o h
  unfold getDescriptor at h
  split at h
  · cases h
    rfl
  · split at h
    · cases h
    · next u l hsend =>
      cases h
      obtain ⟨-, rfl, -⟩ := apiSend_ok hsend
      rfl

/-- The request rows other than the replies and the class and vendor requests store nothing. -/
theorem exec_row_mem {i : Instr} {s t : State} (hrow : i.req?.isSome = true) (hm : mayStore i = false)
    (h : exec i s = .next t) : t.mem = s.mem := by
  cases i
  case clearFeature | setFeature => exact (handlerKeepsMem_const .noData).requestStep_mem h
  case setAddress => exact handlerKeepsMem_setAddress.requestStep_mem h
  case getDescriptor => exact handlerKeepsMem_getDescriptor.requestStep_mem h
  case setConfiguration => exact handlerKeepsMem_setConfiguration.requestStep_mem h
  case setInterface | stdUnrecognised02 | stdUnrecognised04 | stdUnrecognised07 | stdUnrecognised0C0F
      | stdUnrecognised101F | stdUnrecognised203F | stdUnrecognised407F | stdUnrecognised80FF | reservedTypeRequest =>
    exact (handlerKeepsMem_const .error).requestStep_mem h
  case getStatus | getConfiguration | getInterface | classRequest | vendorRequest => cases hm
  all_goals cases hrow

/-- A step that is none of the storing ones leaves memory as it was, entry for entry. -/
theorem exec_mem_of_not_mayStore {i : Instr} {s t : State} (hm : mayStore i = false) (h : exec i s = .next t) :
    t.mem = s.mem := by
  cases ran_of_exec h with
  | fails => rfl
  | same => rfl
  | rst => cases hm
  | bus => rfl
  | row _ _ r u o hr _ => exact exec_row_mem (Option.isSome_iff_exists.2 ⟨r, hr⟩) hm h
  | evS => cases hm
  | evI _ u pp rsv _ hdata => exact onData_mem (t := u) hdata
  | evO _ u pp rsv _ hdata => exact onData_mem (t := u) hdata
  | tx => rfl
  | rx => rfl
  | small => cases hm
  | stall => rfl
  | envS => cases hm
  | envI _ pp x u _ hdata => exact onData_mem (s := inTaken x s) (t := u) hdata
  | envO => cases hm
  | envD _ tok d pp rel x b k => exact releaseDiag_mem (bd0 d x) tok.code b { s with fresh := k }

/-- Settles O56: no such step changes the list that memory is. -/
theorem nonStoringStepsLeaveMemory : Obligations.NonStoringStepsLeaveMemory :=
  fun _ _ _ hm h a => congrArg (memGet · a) (exec_mem_of_not_mayStore hm h)

end Sys2Proof.Machine
end

section
/-! The parts of a step record: the bytes of a value, the optional operands and the SETUP bytes, each with its reader as the
inverse of its writer (00_scope.md R9, 20_memory.md R70, 30_encoding.md R101, R109; log 2). -/

namespace Sys2Proof

/-! ### Bits and bytes -/

/-- Concatenation of bit vectors, by arithmetic. -/
theorem toNat_append_eq_add {v w : Nat} (x : BitVec v) (y : BitVec w) :
    (x ++ y).toNat = x.toNat * 2 ^ w + y.toNat := by
  rw [BitVec.toNat_append, ← Nat.shiftLeft_add_eq_or_of_lt y.isLt, Nat.shiftLeft_eq]

/-- A vector is its high bits before its low bits. -/
theorem append_extractLsb'_of_high {v w : Nat} {x : BitVec (v + w)} {hi : BitVec v} (h : x.extractLsb' w v = hi) :
    hi ++ x.extractLsb' 0 w = x :=
  h ▸ BitVec.extractLsb'_append_extractLsb'

@[simp] theorem le16_byteOf16 (v : BitVec 16) : le16 (byteOf16 v 0) (byteOf16 v 1) = v :=
  BitVec.extractLsb'_append_extractLsb' (w := 8) (len := 8)

@[simp] theorem byteOf16_le16_zero (b0 b1 : Byte) : byteOf16 (le16 b0 b1) 0 = b0 := BitVec.extractLsb'_append_eq_right

@[simp] theorem byteOf16_le16_one (b0 b1 : Byte) : byteOf16 (le16 b0 b1) 1 = b1 := BitVec.extractLsb'_append_eq_left

theorem le16_toNat (b0 b1 : Byte) : (le16 b0 b1).toNat = b0.toNat + 256 * b1.toNat := by
  rw [le16, toNat_append_eq_add]
  omega

@[simp] theorem le32_byteOf32 (v : BitVec 32) :
    le32 (byteOf32 v 0) (byteOf32 v 1) (byteOf32 v 2) (byteOf32 v 3) = v := by
  have low2 : byteOf32 v 1 ++ byteOf32 v 0 = v.extractLsb' 0 16 := BitVec.extractLsb'_append_extractLsb'_eq_extractLsb' rfl
  have low3 : byteOf32 v 2 ++ v.extractLsb' 0 16 = v.extractLsb' 0 24 := BitVec.extractLsb'_append_extractLsb'_eq_extractLsb' rfl
  rw [le32, low2, low3]
  exact BitVec.extractLsb'_append_extractLsb' (w := 8) (len := 24)

@[simp] theorem bytesOf32_le32 (b0 b1 b2 b3 : Byte) : bytesOf32 (le32 b0 b1 b2 b3) = [b0, b1, b2, b3] := by
  have e0 : byteOf32 (le32 b0 b1 b2 b3) 0 = b0 := by
    rw [byteOf32, le32, BitVec.extractLsb'_append_eq_of_add_le (by decide), BitVec.extractLsb'_append_eq_of_add_le (by decide)]
    exact BitVec.extractLsb'_append_eq_right
  have e1 : byteOf32 (le32 b0 b1 b2 b3) 1 = b1 := by
    rw [byteOf32, le32, BitVec.extractLsb'_append_eq_of_add_le (by decide), BitVec.extractLsb'_append_eq_of_add_le (by decide)]
    exact BitVec.extractLsb'_append_eq_left
  have e2 : byteOf32 (le32 b0 b1 b2 b3) 2 = b2 := by
    rw [byteOf32, le32, BitVec.extractLsb'_append_eq_of_add_le (by decide)]
    exact BitVec.extractLsb'_append_eq_left
  have e3 : byteOf32 (le32 b0 b1 b2 b3) 3 = b3 := BitVec.extractLsb'_append_eq_left
  rw [bytesOf32, e0, e1, e2, e3]

/-! ### Operands of one byte -/

theorem decodeSlot_eq_some_iff {b : Byte} {pp : Option Slot} : decodeSlot b = some pp ↔ encodeSlot pp = b := by
  constructor
  · intro h
    unfold decodeSlot at h
    split_ifs at h <;> cases h <;> symm <;> assumption
  · rintro rfl
    rcases pp with _ | _ | _ <;> rfl

theorem decodePid_eq_some_iff {b : Byte} {pid : Option Toggle} : decodePid b = some pid ↔ encodePid pid = b := by
  constructor
  · intro h
    unfold decodePid at h
    split_ifs at h <;> cases h <;> symm <;> assumption
  · rintro rfl
    rcases pid with _ | _ | _ <;> rfl

theorem decodeRelease_eq_some_iff {b : Byte} {rel : Option Bool} : decodeRelease b = some rel ↔ encodeRelease rel = b := by
  constructor
  · intro h
    unfold decodeRelease at h
    split_ifs at h <;> cases h <;> symm <;> assumption
  · rintro rfl
    rcases rel with _ | _ | _ <;> rfl

theorem decodeDir_eq_some_iff {b : Byte} {d : Dir} : decodeDir b = some d ↔ encodeDir d = b := by
  constructor
  · intro h
    unfold decodeDir at h
    split_ifs at h <;> cases h <;> symm <;> assumption
  · rintro rfl
    cases d <;> rfl

theorem decodeDiagTok_eq_some_iff {b : Byte} {tok : DiagTok} : decodeDiagTok b = some tok ↔ encodeDiagTok tok = b := by
  constructor
  · intro h
    unfold decodeDiagTok at h
    split_ifs at h <;> cases h <;> symm <;> assumption
  · rintro rfl
    cases tok <;> rfl

/-! ### Operands of several bytes -/

theorem decodeCb_eq_some_iff {f c0 c1 c2 c3 : Byte} {cb : Option CallbackId} :
    decodeCb f c0 c1 c2 c3 = some cb ↔ encodeCb cb = [f, c0, c1, c2, c3] := by
  constructor
  · intro h
    unfold decodeCb at h
    split_ifs at h with hsome hnone
    · cases h
      simp [encodeCb, hsome]
    · obtain ⟨rfl, rfl, rfl, rfl, rfl⟩ := hnone
      cases h
      rfl
  · cases cb with
    | none =>
      intro h
      cases h
      rfl
    | some c =>
      intro h
      cases h
      simp [decodeCb]

theorem decodeTxOperands_eq_some_iff {mk : Addr → Len → Len → Option CallbackId → Addr → Instr} {p : List Byte} {i : Instr} :
    decodeTxOperands mk p = some i ↔
      ∃ buf len req cb ctx, mk buf len req cb ctx = i ∧ encodeTxOperands buf len req cb ctx = p := by
  constructor
  · intro h
    unfold decodeTxOperands at h
    split at h
    · obtain ⟨cb, hcb, rfl⟩ := Option.map_eq_some_iff.1 h
      exact ⟨_, _, _, cb, _, rfl, by simp [encodeTxOperands, decodeCb_eq_some_iff.1 hcb]⟩
    · cases h
  · rintro ⟨buf, len, req, cb, ctx, rfl, rfl⟩
    cases cb <;> simp [encodeTxOperands, decodeTxOperands, bytesOf32, encodeCb, decodeCb]

theorem decodeRxOperands_eq_some_iff {mk : Addr → Len → Option CallbackId → Addr → Instr} {p : List Byte} {i : Instr} :
    decodeRxOperands mk p = some i ↔ ∃ buf max cb ctx, mk buf max cb ctx = i ∧ encodeRxOperands buf max cb ctx = p := by
  constructor
  · intro h
    unfold decodeRxOperands at h
    split at h
    · obtain ⟨cb, hcb, rfl⟩ := Option.map_eq_some_iff.1 h
      exact ⟨_, _, cb, _, rfl, by simp [encodeRxOperands, decodeCb_eq_some_iff.1 hcb]⟩
    · cases h
  · rintro ⟨buf, max, cb, ctx, rfl, rfl⟩
    cases cb <;> simp [encodeRxOperands, decodeRxOperands, bytesOf32, encodeCb, decodeCb]

theorem decodeSetupData_eq_some_iff {p : List Byte} {b : SetupData} : decodeSetupData p = some b ↔ b.toList = p := by
  constructor
  · intro h
    unfold decodeSetupData at h
    split at h <;> cases h
    rfl
  · rintro rfl
    rfl

/-! ### The control request (30_encoding.md R101, R104) -/

@[simp] theorem decodeReq_encodeReq (r : ControlReq) : decodeReq (encodeReq r) = r := by
  have hrecipient : (r.dir ++ (r.type ++ r.recipient)).extractLsb' 0 5 = r.recipient := by
    rw [BitVec.extractLsb'_append_eq_of_add_le (by decide), BitVec.extractLsb'_append_eq_right]
  have htype : (r.dir ++ (r.type ++ r.recipient)).extractLsb' 5 2 = r.type := by
    rw [BitVec.extractLsb'_append_eq_of_add_le (by decide), BitVec.extractLsb'_append_eq_left]
  have hdir : (r.dir ++ (r.type ++ r.recipient)).extractLsb' 7 1 = r.dir := BitVec.extractLsb'_append_eq_left
  simp only [decodeReq, encodeReq, hrecipient, htype, hdir, le16_byteOf16]

@[simp] theorem encodeReq_decodeReq (b : SetupData) : encodeReq (decodeReq b) = b := by
  have hlow : b.b0.extractLsb' 5 2 ++ b.b0.extractLsb' 0 5 = b.b0.extractLsb' 0 7 :=
    BitVec.extractLsb'_append_extractLsb'_eq_extractLsb' rfl
  have hb0 : b.b0.extractLsb' 7 1 ++ (b.b0.extractLsb' 5 2 ++ b.b0.extractLsb' 0 5) = b.b0 := by
    rw [hlow]
    exact BitVec.extractLsb'_append_extractLsb' (w := 1) (len := 7)
  simp only [decodeReq, encodeReq, hb0, byteOf16_le16_zero, byteOf16_le16_one]

end Sys2Proof
end

section
/-! The rows of SETUP packets and of event words: `instrOfReq` and `instrOfEvent` pick the row whose `req?` or `event?` is the
request or event word (30_encoding.md R105, R110, R111, R114). -/

namespace Sys2Proof

open Sys2Proof.Machine

/-! ### SETUP rows -/

/-- A request is its open fields with its type and code. -/
theorem toReq_fields {r : ControlReq} {t : BitVec 2} {c : BitVec 8} (ht : r.type = t) (hc : c = r.request) :
    r.fields.toReq t c = r := by
  subst ht hc
  rfl

/-- The high bits that tell the five ranges of unrecognised codes apart, by the size of the code. -/
theorem highBits_of_twelve_le : ∀ c : BitVec 8, 12 ≤ c.toNat →
    (c.extractLsb' 2 6 = 3 ↔ c.toNat < 16)
      ∧ (¬ c.toNat < 16 → (c.extractLsb' 4 4 = 1 ↔ c.toNat < 32))
      ∧ (¬ c.toNat < 32 → (c.extractLsb' 5 3 = 1 ↔ c.toNat < 64))
      ∧ (¬ c.toNat < 64 → (c.extractLsb' 6 2 = 1 ↔ c.toNat < 128))
      ∧ (¬ c.toNat < 128 → c.extractLsb' 7 1 = 1) := by decide +kernel

/-- A standard request with none of the codes 0 to 11 is in one of the five ranges of unrecognised codes. -/
theorem instrOfReq_of_twelve_le {r : ControlReq} (ht : r.type = 0) (hc : 12 ≤ r.request.toNat) :
    instrOfReq r =
      if r.request.toNat < 16 then .stdUnrecognised0C0F (r.request.extractLsb' 0 2) r.fields
      else if r.request.toNat < 32 then .stdUnrecognised101F (r.request.extractLsb' 0 4) r.fields
      else if r.request.toNat < 64 then .stdUnrecognised203F (r.request.extractLsb' 0 5) r.fields
      else if r.request.toNat < 128 then .stdUnrecognised407F (r.request.extractLsb' 0 6) r.fields
      else .stdUnrecognised80FF (r.request.extractLsb' 0 7) r.fields := by
  have hne : ∀ k : BitVec 8, k.toNat < 12 → r.request ≠ k := fun k hk e => absurd (e ▸ hc) (Nat.not_le.2 hk)
  obtain ⟨h16, h32, h64, h128, -⟩ := highBits_of_twelve_le r.request hc
  simp (disch := decide) only [instrOfReq, ht, hne, ↓reduceIte, h16]
  refine ite_congr rfl (fun _ => rfl) fun n16 => ?_
  simp only [h32 n16]
  refine ite_congr rfl (fun _ => rfl) fun n32 => ?_
  simp only [h64 n32]
  refine ite_congr rfl (fun _ => rfl) fun n64 => ?_
  simp only [h128 n64]

/-- The row a standard request selects stands for that request. -/
theorem req?_instrOfReq_of_standard {r : ControlReq} (ht : r.type = 0) : (instrOfReq r).req? = some r := by
  by_cases hc : 12 ≤ r.request.toNat
  · obtain ⟨h16, h32, h64, h128, h256⟩ := highBits_of_twelve_le r.request hc
    rw [instrOfReq_of_twelve_le ht hc]
    split_ifs with n16 n32 n64 n128
    · exact congrArg some (toReq_fields ht (append_extractLsb'_of_high (h16.2 n16)))
    · exact congrArg some (toReq_fields ht (append_extractLsb'_of_high ((h32 n16).2 n32)))
    · exact congrArg some (toReq_fields ht (append_extractLsb'_of_high ((h64 n32).2 n64)))
    · exact congrArg some (toReq_fields ht (append_extractLsb'_of_high ((h128 n64).2 n128)))
    · exact congrArg some (toReq_fields ht (append_extractLsb'_of_high (h256 n128)))
  · obtain ⟨recipient, type, dir, c, value, index, length⟩ := r
    obtain rfl : type = 0 := ht
    have hcode : ∀ c : BitVec 8, ¬ 12 ≤ c.toNat → c = 0 ∨ c = 1 ∨ c = 2 ∨ c = 3 ∨ c = 4 ∨ c = 5 ∨ c = 6 ∨ c = 7 ∨ c = 8
        ∨ c = 9 ∨ c = 10 ∨ c = 11 := by decide +kernel
    rcases hcode c hc with rfl | rfl | rfl | rfl | rfl | rfl | rfl | rfl | rfl | rfl | rfl | rfl <;> rfl

/-- The row a request selects stands for that request. -/
theorem req?_instrOfReq (r : ControlReq) : (instrOfReq r).req? = some r := by
  by_cases h0 : r.type = 0
  · exact req?_instrOfReq_of_standard h0
  · have hreserved : ∀ t : BitVec 2, t ≠ 0 → t ≠ 1 → t ≠ 2 → t = 3 := by decide
    simp only [instrOfReq, if_neg h0]
    split_ifs with h1 h2
    · exact congrArg some (toReq_fields h1 rfl)
    · exact congrArg some (toReq_fields h2 rfl)
    · exact congrArg some (toReq_fields (hreserved _ h0 h1 h2) rfl)

/-- A SETUP row is the row its request selects. -/
theorem instrOfReq_of_req? {i : Instr} {r : ControlReq} (h : i.req? = some r) : instrOfReq r = i := by
  cases i <;> cases h
  case stdUnrecognised0C0F lo f =>
    have hlo := lo.isLt
    have hc : (f.toReq 0 ((3 : BitVec 6) ++ lo)).request.toNat = 12 + lo.toNat := toNat_append_eq_add _ lo
    rw [instrOfReq_of_twelve_le rfl (by omega), if_pos (by omega)]
    exact congrArg (Instr.stdUnrecognised0C0F · f) BitVec.extractLsb'_append_eq_right
  case stdUnrecognised101F lo f =>
    have hlo := lo.isLt
    have hc : (f.toReq 0 ((1 : BitVec 4) ++ lo)).request.toNat = 16 + lo.toNat := toNat_append_eq_add _ lo
    rw [instrOfReq_of_twelve_le rfl (by omega), if_neg (by omega), if_pos (by omega)]
    exact congrArg (Instr.stdUnrecognised101F · f) BitVec.extractLsb'_append_eq_right
  case stdUnrecognised203F lo f =>
    have hlo := lo.isLt
    have hc : (f.toReq 0 ((1 : BitVec 3) ++ lo)).request.toNat = 32 + lo.toNat := toNat_append_eq_add _ lo
    rw [instrOfReq_of_twelve_le rfl (by omega), if_neg (by omega), if_neg (by omega), if_pos (by omega)]
    exact congrArg (Instr.stdUnrecognised203F · f) BitVec.extractLsb'_append_eq_right
  case stdUnrecognised407F lo f =>
    have hlo := lo.isLt
    have hc : (f.toReq 0 ((1 : BitVec 2) ++ lo)).request.toNat = 64 + lo.toNat := toNat_append_eq_add _ lo
    rw [instrOfReq_of_twelve_le rfl (by omega), if_neg (by omega), if_neg (by omega), if_neg (by omega), if_pos (by omega)]
    exact congrArg (Instr.stdUnrecognised407F · f) BitVec.extractLsb'_append_eq_right
  case stdUnrecognised80FF lo f =>
    have hlo := lo.isLt
    have hc : (f.toReq 0 ((1 : BitVec 1) ++ lo)).request.toNat = 128 + lo.toNat := toNat_append_eq_add _ lo
    rw [instrOfReq_of_twelve_le rfl (by omega), if_neg (by omega), if_neg (by omega), if_neg (by omega), if_neg (by omega)]
    exact congrArg (Instr.stdUnrecognised80FF · f) BitVec.extractLsb'_append_eq_right
  all_goals rfl

theorem req?_eq_some_iff {i : Instr} {r : ControlReq} : i.req? = some r ↔ instrOfReq r = i :=
  ⟨instrOfReq_of_req?, fun h => h ▸ req?_instrOfReq r⟩

/-! ### Event rows -/

/-- Every event word is made of a token, an endpoint, a direction, a slot and the ignored bits (30_encoding.md R109, R110). -/
theorem exists_eventBits (w : BitVec 12) : ∃ tok ep d pp rsv, w = eventBits tok ep d pp rsv := by
  have hdir : ∀ b : BitVec 1, (Dir.ofBit b).bit = b := by decide
  have hslot : ∀ b : BitVec 1, (Slot.ofBit b).bit = b := by decide
  refine ⟨w.extractLsb' 8 4, w.extractLsb' 4 4, .ofBit (w.extractLsb' 3 1), .ofBit (w.extractLsb' 2 1), w.extractLsb' 0 2, ?_⟩
  have h3 : w.extractLsb' 2 1 ++ w.extractLsb' 0 2 = w.extractLsb' 0 3 := BitVec.extractLsb'_append_extractLsb'_eq_extractLsb' rfl
  have h4 : w.extractLsb' 3 1 ++ w.extractLsb' 0 3 = w.extractLsb' 0 4 := BitVec.extractLsb'_append_extractLsb'_eq_extractLsb' rfl
  have h8 : w.extractLsb' 4 4 ++ w.extractLsb' 0 4 = w.extractLsb' 0 8 := BitVec.extractLsb'_append_extractLsb'_eq_extractLsb' rfl
  rw [eventBits, eventWord, statWord, hdir, hslot, h3, h4, h8]
  exact (BitVec.extractLsb'_append_extractLsb' (w := 4) (len := 8)).symm

section EventBits

variable (tok ep : BitVec 4) (d : Dir) (pp : Slot) (rsv : BitVec 2)

@[simp] theorem eventBits_tok : (eventBits tok ep d pp rsv).extractLsb' 8 4 = tok := BitVec.extractLsb'_append_eq_left

@[simp] theorem eventBits_ep : (eventBits tok ep d pp rsv).extractLsb' 4 4 = ep :=
  (BitVec.extractLsb'_append_eq_of_add_le (by decide)).trans (congrArg Resolved.ep (resolve_statWord ep d pp rsv))

@[simp] theorem eventBits_dir : Dir.ofBit ((eventBits tok ep d pp rsv).extractLsb' 3 1) = d :=
  (congrArg Dir.ofBit (BitVec.extractLsb'_append_eq_of_add_le (by decide))).trans
    (congrArg Resolved.dir (resolve_statWord ep d pp rsv))

@[simp] theorem eventBits_pp : Slot.ofBit ((eventBits tok ep d pp rsv).extractLsb' 2 1) = pp :=
  (congrArg Slot.ofBit (BitVec.extractLsb'_append_eq_of_add_le (by decide))).trans
    (congrArg Resolved.pp (resolve_statWord ep d pp rsv))

@[simp] theorem eventBits_rsv : (eventBits tok ep d pp rsv).extractLsb' 0 2 = rsv := by
  rw [eventBits, eventWord, statWord, BitVec.extractLsb'_append_eq_of_add_le (by decide),
    BitVec.extractLsb'_append_eq_of_add_le (by decide), BitVec.extractLsb'_append_eq_of_add_le (by decide),
    BitVec.extractLsb'_append_eq_right]

end EventBits

/-- An event row is the row its event word selects. -/
theorem instrOfEvent_of_event? {i : Instr} {w : BitVec 12} (h : i.event? = some w) : instrOfEvent w = i := by
  have hne1 : ∀ (lo : BitVec 3) (k : BitVec 4), k.extractLsb' 3 1 ≠ 1 → (1 : BitVec 1) ++ lo ≠ k := by decide
  have hne2 : ∀ (lo : BitVec 2) (k : BitVec 4), k.extractLsb' 2 2 ≠ 1 → (1 : BitVec 2) ++ lo ≠ k := by decide
  have hne3 : ∀ (lo : BitVec 1) (k : BitVec 4), k.extractLsb' 1 3 ≠ 1 → (1 : BitVec 3) ++ lo ≠ k := by decide
  have hlow2 : ∀ lo : BitVec 2, ((1 : BitVec 2) ++ lo).extractLsb' 3 1 ≠ (1 : BitVec 1) := by decide
  have hlow3 : ∀ lo : BitVec 1, ((1 : BitVec 3) ++ lo).extractLsb' 3 1 ≠ (1 : BitVec 1)
      ∧ ((1 : BitVec 3) ++ lo).extractLsb' 2 2 ≠ (1 : BitVec 2) := by decide
  cases i <;> cases h <;>
    simp only [instrOfEvent, eventBits_tok, eventBits_ep, eventBits_dir, eventBits_pp, eventBits_rsv]
  case evIllegalTok47 =>
    simp (disch := decide) only [hne2, BitVec.extractLsb'_append_eq_left, BitVec.extractLsb'_append_eq_right, ↓reduceIte]
  case evWrongEndpoint8F =>
    simp (disch := decide) only [hne1, BitVec.extractLsb'_append_eq_left, BitVec.extractLsb'_append_eq_right, ↓reduceIte]
  case evWrongEndpoint47 =>
    simp (disch := decide) only [hne2, hlow2, BitVec.extractLsb'_append_eq_left, BitVec.extractLsb'_append_eq_right,
      ↓reduceIte]
  case evWrongEndpoint23 =>
    simp (disch := decide) only [hne3, hlow3, BitVec.extractLsb'_append_eq_left, BitVec.extractLsb'_append_eq_right,
      ↓reduceIte]
  all_goals rfl

/-- Every endpoint-0 token and direction has a row (43_control_fsm.md R235). -/
theorem exists_event?_endpoint0 (tok : BitVec 4) (d : Dir) (pp : Slot) (rsv : BitVec 2) :
    ∃ i : Instr, i.event? = some (eventBits tok 0 d pp rsv) := by
  have htok : ∀ t : BitVec 4, t.extractLsb' 2 2 = 1 ∨ t = tokTimeout ∨ t = tokOut ∨ t = tokAck ∨ t = 0x3 ∨ t = 0x8
      ∨ t = tokIn ∨ t = tokNak ∨ t = 0xB ∨ t = 0xC ∨ t = tokSetup ∨ t = tokStall ∨ t = tokDataerr := by decide
  rcases htok tok with h | rfl | rfl | rfl | rfl | rfl | rfl | rfl | rfl | rfl | rfl | rfl | rfl
  · exact ⟨.evIllegalTok47 (tok.extractLsb' 0 2) d pp rsv,
      congrArg (fun t => some (eventBits t 0 d pp rsv)) (append_extractLsb'_of_high h)⟩
  · exact ⟨.evDiagTimeout d pp rsv, rfl⟩
  · cases d with
    | rx => exact ⟨.evOutRx pp rsv, rfl⟩
    | tx => exact ⟨.evIllegalOutTx pp rsv, rfl⟩
  · exact ⟨.evDiagAck d pp rsv, rfl⟩
  · exact ⟨.evIllegalTok3 d pp rsv, rfl⟩
  · exact ⟨.evIllegalTok8 d pp rsv, rfl⟩
  · cases d with
    | rx => exact ⟨.evIllegalInRx pp rsv, rfl⟩
    | tx => exact ⟨.evInTx pp rsv, rfl⟩
  · exact ⟨.evDiagNak d pp rsv, rfl⟩
  · exact ⟨.evIllegalTokB d pp rsv, rfl⟩
  · exact ⟨.evIllegalTokC d pp rsv, rfl⟩
  · cases d with
    | rx => exact ⟨.evSetupRx pp rsv, rfl⟩
    | tx => exact ⟨.evIllegalSetupTx pp rsv, rfl⟩
  · exact ⟨.evDiagStall d pp rsv, rfl⟩
  · exact ⟨.evDiagDataerr d pp rsv, rfl⟩

/-- Every other endpoint has a row (40_bd_directory.md R156). -/
theorem exists_event?_otherEndpoint (tok : BitVec 4) {ep : BitVec 4} (d : Dir) (pp : Slot) (rsv : BitVec 2) (hep : ep ≠ 0) :
    ∃ i : Instr, i.event? = some (eventBits tok ep d pp rsv) := by
  have hrange : ∀ e : BitVec 4, e ≠ 0 → e.extractLsb' 3 1 = 1 ∨ e.extractLsb' 2 2 = 1 ∨ e.extractLsb' 1 3 = 1 ∨ e = 1 := by
    decide
  rcases hrange ep hep with h | h | h | rfl
  · exact ⟨.evWrongEndpoint8F tok (ep.extractLsb' 0 3) d pp rsv,
      congrArg (fun e => some (eventBits tok e d pp rsv)) (append_extractLsb'_of_high h)⟩
  · exact ⟨.evWrongEndpoint47 tok (ep.extractLsb' 0 2) d pp rsv,
      congrArg (fun e => some (eventBits tok e d pp rsv)) (append_extractLsb'_of_high h)⟩
  · exact ⟨.evWrongEndpoint23 tok (ep.extractLsb' 0 1) d pp rsv,
      congrArg (fun e => some (eventBits tok e d pp rsv)) (append_extractLsb'_of_high h)⟩
  · exact ⟨.evWrongEndpoint1 tok d pp rsv, rfl⟩

theorem exists_event? (w : BitVec 12) : ∃ i : Instr, i.event? = some w := by
  obtain ⟨tok, ep, d, pp, rsv, rfl⟩ := exists_eventBits w
  by_cases hep : ep = 0
  · subst hep
    exact exists_event?_endpoint0 tok d pp rsv
  · exact exists_event?_otherEndpoint tok d pp rsv hep

/-- The row an event word selects is the one that stands for it. -/
theorem event?_eq_some_iff {i : Instr} {w : BitVec 12} : i.event? = some w ↔ instrOfEvent w = i := by
  refine ⟨instrOfEvent_of_event?, ?_⟩
  rintro rfl
  obtain ⟨j, hj⟩ := exists_event? w
  rw [instrOfEvent_of_event? hj, hj]

end Sys2Proof
end

section
/-! Step records: `decode` answers a row exactly for that row's own record, so decoder and encoder are inverse to each other
(log 2). Each reader is described by an `↔`; the two directions of the claim then go kind by kind and row by row. -/

namespace Sys2Proof

/-! ### The readers of operands -/

theorem encode_envOut_none (pp : Option Slot) (pid : Option Toggle) (n : BitVec 16) :
    encode (.envOut pp pid n none)
      = [kindEnvOut, encodeSlot pp, encodePid pid, byteOf16 n 0, byteOf16 n 1, 0] := rfl

theorem encode_envOut_some (pp : Option Slot) (pid : Option Toggle) (n : BitVec 16) (l : List Byte) :
    encode (.envOut pp pid n (some l))
      = kindEnvOut :: encodeSlot pp :: encodePid pid :: byteOf16 n 0 :: byteOf16 n 1 :: 1 :: l := rfl

theorem decodeSetupRecord_eq_some_iff {p : List Byte} {i : Instr} :
    decodeSetupRecord p = some i ↔ ∃ r, i.req? = some r ∧ (encodeReq r).toList = p := by
  constructor
  · intro h
    obtain ⟨b, hb, rfl⟩ := Option.map_eq_some_iff.1 h
    exact ⟨decodeReq b, req?_instrOfReq _, by rw [encodeReq_decodeReq, decodeSetupData_eq_some_iff.1 hb]⟩
  · rintro ⟨r, hr, rfl⟩
    rw [decodeSetupRecord, decodeSetupData_eq_some_iff.2 rfl, Option.map_some, decodeReq_encodeReq, req?_eq_some_iff.1 hr]

theorem decodeEventRecord_eq_some_iff {p : List Byte} {i : Instr} :
    decodeEventRecord p = some i ↔ ∃ w, i.event? = some w ∧ eventRecord w = kindEvent :: p := by
  constructor
  · intro h
    unfold decodeEventRecord at h
    split at h
    · next w0 w1 =>
      split_ifs at h with hhigh
      refine ⟨w1.extractLsb' 0 4 ++ w0, event?_eq_some_iff.2 (Option.some.inj h), ?_⟩
      rw [eventRecord, BitVec.extractLsb'_append_eq_right, BitVec.extractLsb'_append_eq_left,
        append_extractLsb'_of_high hhigh]
    · cases h
  · rintro ⟨w, hw, hrec⟩
    cases hrec
    have hbytes : w.extractLsb' 8 4 ++ w.extractLsb' 0 8 = w := BitVec.extractLsb'_append_extractLsb' (w := 4) (len := 8)
    rw [decodeEventRecord, BitVec.extractLsb'_append_eq_left, BitVec.extractLsb'_append_eq_right, if_pos rfl, hbytes,
      event?_eq_some_iff.1 hw]

theorem decodeSendSmall_eq_some_iff {p : List Byte} {i : Instr} :
    decodeSendSmall p = some i ↔ ∃ src len, .sendSmall src len = i ∧ bytesOf32 src ++ bytesOf32 len = p := by
  constructor
  · intro h
    unfold decodeSendSmall at h
    split at h <;> cases h
    exact ⟨_, _, rfl, by simp⟩
  · rintro ⟨src, len, rfl, rfl⟩
    simp [decodeSendSmall, bytesOf32]

theorem decodeStall_eq_some_iff {p : List Byte} {i : Instr} :
    decodeStall p = some i ↔ ∃ ep, .stall ep = i ∧ [(0 : BitVec 4) ++ ep] = p := by
  constructor
  · intro h
    unfold decodeStall at h
    split at h
    · split_ifs at h with hhigh
      cases h
      exact ⟨_, rfl, congrArg (fun b : Byte => [b]) (append_extractLsb'_of_high hhigh)⟩
    · cases h
  · rintro ⟨ep, rfl, rfl⟩
    rw [decodeStall, BitVec.extractLsb'_append_eq_left, BitVec.extractLsb'_append_eq_right, if_pos rfl]

theorem decodeBare_eq_some_iff {p : List Byte} {i j : Instr} : decodeBare j p = some i ↔ j = i ∧ p = [] := by
  cases p <;> simp [decodeBare]

theorem decodeEnvSetup_eq_some_iff {p : List Byte} {i : Instr} :
    decodeEnvSetup p = some i ↔ ∃ pp b, .envSetup pp b = i ∧ encodeSlot pp :: b.toList = p := by
  constructor
  · intro h
    unfold decodeEnvSetup at h
    split at h
    · obtain ⟨pp, hpp, hrest⟩ := Option.bind_eq_some_iff.1 h
      obtain ⟨b, hb, rfl⟩ := Option.map_eq_some_iff.1 hrest
      exact ⟨pp, b, rfl, by rw [decodeSlot_eq_some_iff.1 hpp, decodeSetupData_eq_some_iff.1 hb]⟩
    · cases h
  · rintro ⟨pp, b, rfl, rfl⟩
    rw [decodeEnvSetup, decodeSlot_eq_some_iff.2 rfl, decodeSetupData_eq_some_iff.2 rfl]
    rfl

theorem decodeEnvIn_eq_some_iff {p : List Byte} {i : Instr} :
    decodeEnvIn p = some i ↔ ∃ pp, .envIn pp = i ∧ [encodeSlot pp] = p := by
  constructor
  · intro h
    unfold decodeEnvIn at h
    split at h
    · obtain ⟨pp, hpp, rfl⟩ := Option.map_eq_some_iff.1 h
      exact ⟨pp, rfl, by rw [decodeSlot_eq_some_iff.1 hpp]⟩
    · cases h
  · rintro ⟨pp, rfl, rfl⟩
    rw [decodeEnvIn, decodeSlot_eq_some_iff.2 rfl]
    rfl

theorem decodeEnvOut_eq_some_iff {p : List Byte} {i : Instr} :
    decodeEnvOut p = some i ↔ ∃ pp pid n bytes, .envOut pp pid n bytes = i ∧ outBytesMatch n bytes = true
      ∧ encode (.envOut pp pid n bytes) = kindEnvOut :: p := by
  constructor
  · intro h
    unfold decodeEnvOut at h
    split at h
    · obtain ⟨pp, hpp, hpids⟩ := Option.bind_eq_some_iff.1 h
      obtain ⟨pid, hpid, hbytes⟩ := Option.bind_eq_some_iff.1 hpids
      obtain rfl := decodeSlot_eq_some_iff.1 hpp
      obtain rfl := decodePid_eq_some_iff.1 hpid
      clear h hpids
      split_ifs at hbytes with hsome hnone
      · obtain ⟨rfl, hlen⟩ := hsome
        cases hbytes
        exact ⟨pp, pid, _, _, rfl, by simpa [outBytesMatch] using hlen,
          by rw [encode_envOut_some, byteOf16_le16_zero, byteOf16_le16_one]⟩
      · obtain ⟨rfl, rfl⟩ := hnone
        cases hbytes
        exact ⟨pp, pid, _, _, rfl, rfl, by rw [encode_envOut_none, byteOf16_le16_zero, byteOf16_le16_one]⟩
    · cases h
  · rintro ⟨pp, pid, n, bytes, rfl, hwf, hrec⟩
    cases bytes with
    | none =>
      cases hrec
      rw [decodeEnvOut, decodeSlot_eq_some_iff.2 rfl, decodePid_eq_some_iff.2 rfl]
      simp
    | some l =>
      cases hrec
      rw [decodeEnvOut, decodeSlot_eq_some_iff.2 rfl, decodePid_eq_some_iff.2 rfl]
      have hlen : l.length = n.toNat := by simpa [outBytesMatch] using hwf
      simp [hlen]

theorem decodeEnvDiag_eq_some_iff {p : List Byte} {i : Instr} :
    decodeEnvDiag p = some i ↔ ∃ tok d pp rel, .envDiag tok d pp rel = i
      ∧ [encodeDiagTok tok, encodeDir d, encodeSlot pp, encodeRelease rel] = p := by
  constructor
  · intro h
    unfold decodeEnvDiag at h
    split at h
    · obtain ⟨tok, htok, hdirs⟩ := Option.bind_eq_some_iff.1 h
      obtain ⟨d, hd, hslots⟩ := Option.bind_eq_some_iff.1 hdirs
      obtain ⟨pp, hpp, hrels⟩ := Option.bind_eq_some_iff.1 hslots
      obtain ⟨rel, hrel, rfl⟩ := Option.map_eq_some_iff.1 hrels
      exact ⟨tok, d, pp, rel, rfl, by rw [decodeDiagTok_eq_some_iff.1 htok, decodeDir_eq_some_iff.1 hd,
        decodeSlot_eq_some_iff.1 hpp, decodeRelease_eq_some_iff.1 hrel]⟩
    · cases h
  · rintro ⟨tok, d, pp, rel, rfl, rfl⟩
    rw [decodeEnvDiag, decodeDiagTok_eq_some_iff.2 rfl, decodeDir_eq_some_iff.2 rfl, decodeSlot_eq_some_iff.2 rfl,
      decodeRelease_eq_some_iff.2 rfl]
    rfl

/-! ### The encoder, by the kind of row -/

theorem encode_of_req? {i : Instr} {r : ControlReq} (h : i.req? = some r) : encode i = kindSetup :: (encodeReq r).toList := by
  rw [encode, h]
  rfl

/-- No event row is a SETUP row. -/
theorem req?_of_event? {i : Instr} {w : BitVec 12} (h : i.event? = some w) : i.req? = none := by
  cases i <;> cases h <;> rfl

theorem encode_of_event? {i : Instr} {w : BitVec 12} (h : i.event? = some w) : encode i = eventRecord w := by
  rw [encode, req?_of_event? h, h]

theorem wellFormed_of_req? {i : Instr} {r : ControlReq} (h : i.req? = some r) : i.wellFormed = true := by
  cases i with
  | envOut => cases h
  | _ => rfl

theorem wellFormed_of_event? {i : Instr} {w : BitVec 12} (h : i.event? = some w) : i.wellFormed = true := by
  cases i with
  | envOut => cases h
  | _ => rfl

/-! ### Decoding and encoding -/

theorem decode_cons_ok_iff {k : Byte} {p : List Byte} {i : Instr} :
    decode (k :: p) = .ok i ↔ decodeKind k p = some (some i) := by
  rw [decode]
  rcases decodeKind k p with _ | _ | j <;> simp

theorem decode_of_reader {k : Byte} {p : List Byte} {o : Option Instr} {i : Instr} (hkind : decodeKind k p = some o)
    (h : o = some i) : decode (k :: p) = .ok i :=
  decode_cons_ok_iff.2 (hkind.trans (congrArg some h))

/-- Only the fifteen kind bytes have a reader. -/
theorem kind_of_decodeKind {k : Byte} {p : List Byte} {o : Option Instr} (h : decodeKind k p = some o) :
    k = kindSetup ∨ k = kindEvent ∨ k = kindSend ∨ k = kindSendSmall ∨ k = kindReceive ∨ k = kindStall ∨ k = kindQuery
      ∨ k = kindBeginTx ∨ k = kindBeginRx ∨ k = kindEnvSetup ∨ k = kindEnvIn ∨ k = kindEnvOut ∨ k = kindEnvDiag
      ∨ k = kindReset ∨ k = kindBusreset := by
  by_contra hk
  simp only [not_or] at hk
  simp only [decodeKind, hk, if_false, reduceCtorEq] at h

/-- What decodes is a well-formed row's record: the kind byte gives the reader, and the reader its row. -/
theorem wellFormed_and_encode_of_decodeKind {k : Byte} {p : List Byte} {i : Instr} (h : decodeKind k p = some (some i)) :
    i.wellFormed = true ∧ encode i = k :: p := by
  rcases kind_of_decodeKind h with rfl | rfl | rfl | rfl | rfl | rfl | rfl | rfl | rfl | rfl | rfl | rfl | rfl | rfl | rfl
  all_goals replace h := Option.some.inj h
  · obtain ⟨r, hr, rfl⟩ := decodeSetupRecord_eq_some_iff.1 h
    exact ⟨wellFormed_of_req? hr, encode_of_req? hr⟩
  · obtain ⟨w, hw, hrec⟩ := decodeEventRecord_eq_some_iff.1 h
    exact ⟨wellFormed_of_event? hw, (encode_of_event? hw).trans hrec⟩
  · obtain ⟨buf, len, req, cb, ctx, rfl, rfl⟩ := decodeTxOperands_eq_some_iff.1 h
    exact ⟨rfl, rfl⟩
  · obtain ⟨src, len, rfl, rfl⟩ := decodeSendSmall_eq_some_iff.1 h
    exact ⟨rfl, rfl⟩
  · obtain ⟨buf, max, cb, ctx, rfl, rfl⟩ := decodeRxOperands_eq_some_iff.1 h
    exact ⟨rfl, rfl⟩
  · obtain ⟨ep, rfl, rfl⟩ := decodeStall_eq_some_iff.1 h
    exact ⟨rfl, rfl⟩
  · obtain ⟨rfl, rfl⟩ := decodeBare_eq_some_iff.1 h
    exact ⟨rfl, rfl⟩
  · obtain ⟨buf, len, req, cb, ctx, rfl, rfl⟩ := decodeTxOperands_eq_some_iff.1 h
    exact ⟨rfl, rfl⟩
  · obtain ⟨buf, max, cb, ctx, rfl, rfl⟩ := decodeRxOperands_eq_some_iff.1 h
    exact ⟨rfl, rfl⟩
  · obtain ⟨pp, b, rfl, rfl⟩ := decodeEnvSetup_eq_some_iff.1 h
    exact ⟨rfl, rfl⟩
  · obtain ⟨pp, rfl, rfl⟩ := decodeEnvIn_eq_some_iff.1 h
    exact ⟨rfl, rfl⟩
  · obtain ⟨pp, pid, n, bytes, rfl, hwf, hrec⟩ := decodeEnvOut_eq_some_iff.1 h
    exact ⟨hwf, hrec⟩
  · obtain ⟨tok, d, pp, rel, rfl, rfl⟩ := decodeEnvDiag_eq_some_iff.1 h
    exact ⟨rfl, rfl⟩
  · obtain ⟨rfl, rfl⟩ := decodeBare_eq_some_iff.1 h
    exact ⟨rfl, rfl⟩
  · obtain ⟨rfl, rfl⟩ := decodeBare_eq_some_iff.1 h
    exact ⟨rfl, rfl⟩

/-- Settles O2: a record has a kind byte, and its reader gives the row back with that record. -/
theorem encodeInvertsDecode : Obligations.EncodeInvertsDecode := by
  intro b i h
  cases b with
  | nil => cases h
  | cons k p => exact wellFormed_and_encode_of_decodeKind (decode_cons_ok_iff.1 h)

theorem decode_encode_of_req? {i : Instr} {r : ControlReq} (h : i.req? = some r) : decode (encode i) = .ok i := by
  rw [encode_of_req? h]
  exact decode_of_reader rfl (decodeSetupRecord_eq_some_iff.2 ⟨r, h, rfl⟩)

theorem decode_encode_of_event? {i : Instr} {w : BitVec 12} (h : i.event? = some w) : decode (encode i) = .ok i := by
  rw [encode_of_event? h]
  exact decode_of_reader rfl (decodeEventRecord_eq_some_iff.2 ⟨w, h, rfl⟩)

/-- Settles O1: SETUP rows by their request, event rows by their event word, every other step by its own kind byte. -/
theorem decodeInvertsEncode : Obligations.DecodeInvertsEncode := by
  intro i hwf
  cases i
  case send buf len req cb ctx =>
    exact decode_of_reader rfl (decodeTxOperands_eq_some_iff.2 ⟨buf, len, req, cb, ctx, rfl, rfl⟩)
  case sendSmall src len =>
    exact decode_of_reader rfl (decodeSendSmall_eq_some_iff.2 ⟨src, len, rfl, rfl⟩)
  case receive buf max cb ctx =>
    exact decode_of_reader rfl (decodeRxOperands_eq_some_iff.2 ⟨buf, max, cb, ctx, rfl, rfl⟩)
  case stall ep => exact decode_of_reader rfl (decodeStall_eq_some_iff.2 ⟨ep, rfl, rfl⟩)
  case beginTx buf len req cb ctx =>
    exact decode_of_reader rfl (decodeTxOperands_eq_some_iff.2 ⟨buf, len, req, cb, ctx, rfl, rfl⟩)
  case beginRx buf max cb ctx =>
    exact decode_of_reader rfl (decodeRxOperands_eq_some_iff.2 ⟨buf, max, cb, ctx, rfl, rfl⟩)
  case envSetup pp b => exact decode_of_reader rfl (decodeEnvSetup_eq_some_iff.2 ⟨pp, b, rfl, rfl⟩)
  case envIn pp => exact decode_of_reader rfl (decodeEnvIn_eq_some_iff.2 ⟨pp, rfl, rfl⟩)
  case envOut pp pid n bytes =>
    cases bytes with
    | none => exact decode_of_reader rfl (decodeEnvOut_eq_some_iff.2 ⟨pp, pid, n, none, rfl, hwf, rfl⟩)
    | some l => exact decode_of_reader rfl (decodeEnvOut_eq_some_iff.2 ⟨pp, pid, n, some l, rfl, hwf, rfl⟩)
  case envDiag tok d pp rel =>
    exact decode_of_reader rfl (decodeEnvDiag_eq_some_iff.2 ⟨tok, d, pp, rel, rfl, rfl⟩)
  case query | reset | busreset => exact decode_of_reader rfl (decodeBare_eq_some_iff.2 ⟨rfl, rfl⟩)
  case evSetupRx | evOutRx | evInTx | evDiagTimeout | evDiagAck | evDiagNak | evDiagStall | evDiagDataerr | evIllegalSetupTx
      | evIllegalOutTx | evIllegalInRx | evIllegalTok3 | evIllegalTok47 | evIllegalTok8 | evIllegalTokB | evIllegalTokC
      | evWrongEndpoint8F | evWrongEndpoint47 | evWrongEndpoint23 | evWrongEndpoint1 =>
    exact decode_encode_of_event? rfl
  all_goals exact decode_encode_of_req? rfl

/-- Settles O3: the fixed words, evaluated. -/
theorem specWordsDecodeToTheirRows : Obligations.SpecWordsDecodeToTheirRows := by
  unfold Obligations.SpecWordsDecodeToTheirRows
  decide +kernel

end Sys2Proof
end

section
/-! The fields of a request and the word form of a descriptor, by arithmetic on their bits (30_encoding.md R104, R106, R107). -/

namespace Sys2Proof.Machine

open Sys2Proof

/-- Settles O4: each field of byte 0 is a shift and a remainder of it. -/
theorem requestFieldsOfSetupBytes : Obligations.RequestFieldsOfSetupBytes := by
  intro b
  refine ⟨BitVec.extractLsb'_toNat 0 5 b.b0, ?_, ?_, rfl, le16_toNat _ _, le16_toNat _ _, le16_toNat _ _⟩
  · exact (BitVec.extractLsb'_toNat 5 2 b.b0).trans (by rw [Nat.shiftRight_eq_div_pow])
  · have hb := b.b0.isLt
    refine (BitVec.extractLsb'_toNat 7 1 b.b0).trans ?_
    rw [Nat.shiftRight_eq_div_pow]
    omega

/-- Word 0 of an armed descriptor is the sum of its fields at their places. -/
theorem armedWord0_toNat (b : Bd) : b.armedWord0.toNat
    = b.bc.toNat * 65536 + (flagBit b.own).toNat * 128 + b.data01.bit.toNat * 64 + (flagBit b.dts).toNat * 8
      + (flagBit b.stall).toNat * 4 := by
  simp only [Bd.armedWord0, toNat_append_eq_add, BitVec.ofNat_eq_ofNat, BitVec.toNat_zero]
  omega

theorem completedWord0_toNat (b : Bd) : b.completedWord0.toNat
    = b.bc.toNat * 65536 + (flagBit b.own).toNat * 128 + b.data01.bit.toNat * 64 + b.tokPid.toNat * 4 := by
  simp only [Bd.completedWord0, toNat_append_eq_add, BitVec.ofNat_eq_ofNat, BitVec.toNat_zero]
  omega

/-- Settles O6: the fields of an armed and of a handed-back descriptor, put into the sums of the two words. -/
theorem descriptorWordForm : Obligations.DescriptorWordForm := by
  constructor
  · intro a n t b hn
    refine ⟨?_, rfl⟩
    have hbc : (armedBd a n t b).bc.toNat = n := Nat.mod_eq_of_lt hn
    rw [armedWord0_toNat, hbc]
    cases t <;> simp [armedBd, flagBit, Toggle.bit]
  · intro b hown
    rw [completedWord0_toNat, hown]
    cases b.data01 <;> simp [flagBit, Toggle.bit]

end Sys2Proof.Machine
end

section
/-! Script lines that leave out a slot or a data PID (30_encoding.md R117; logs 10, 11). -/

namespace Sys2Proof.Machine

open Sys2Proof

/-- A line without a slot acts on the owned descriptor of the direction, where there is one. -/
theorem chooseSlot_none_of_owned {d : Dir} {x : Slot} {s : State} (h : (s.bdAt (bd0 d x)).own = true)
    (hother : (s.bdAt (bd0 d (flipSlot x))).own = false) : chooseSlot d none s = x := by
  cases x with
  | even => exact if_pos h
  | odd =>
    have heven : ¬ (s.bdAt (bd0 d .even)).own = true := Bool.eq_false_iff.1 hother
    exact (if_neg heven).trans (if_pos h)

section SlotOperand

variable {d : Dir} {pp qq : Option Slot} {s : State}

theorem exec_envSetup_congr (h : chooseSlot .rx pp s = chooseSlot .rx qq s) (b : SetupData) :
    exec (.envSetup pp b) s = exec (.envSetup qq b) s := by
  simp only [exec, execEnvSetup, h]

theorem exec_envIn_congr (h : chooseSlot .tx pp s = chooseSlot .tx qq s) :
    exec (.envIn pp) s = exec (.envIn qq) s := by
  simp only [exec, execEnvIn, h]

theorem exec_envOut_congr (h : chooseSlot .rx pp s = chooseSlot .rx qq s) (pid : Option Toggle) (n : BitVec 16)
    (l : Option (List Byte)) : exec (.envOut pp pid n l) s = exec (.envOut qq pid n l) s := by
  simp only [exec, execEnvOut, h]

theorem exec_envDiag_congr (h : chooseSlot d pp s = chooseSlot d qq s) (tok : DiagTok) (rel : Option Bool) :
    exec (.envDiag tok d pp rel) s = exec (.envDiag tok d qq rel) s := by
  simp only [exec, execEnvDiag, h]

end SlotOperand

/-- The host of a line without a PID meets the PID clause, as one that sends the descriptor's toggle does
(46_transaction_completion.md R343). -/
theorem canOut_none_pid (x : Slot) (n : Nat) (l : List Byte) (s : State) :
    canOut x none n l s = canOut x (some (s.bdAt (bd0 .rx x)).data01) n l s := by
  simp only [canOut, pidMatches, beq_self_eq_true]

theorem exec_envOut_none_pid (x : Slot) (n : BitVec 16) (l : Option (List Byte)) (s : State) :
    exec (.envOut (some x) none n l) s = exec (.envOut (some x) (some (s.bdAt (bd0 .rx x)).data01) n l) s := by
  simp only [exec, execEnvOut, canOut_none_pid]
  rfl

/-- Settles O45: the chosen slot is the owned one, and a step uses its slot operand through that choice only. -/
theorem scriptFormTakesTheOwnedDescriptor : Obligations.ScriptFormTakesTheOwnedDescriptor := by
  intro x s
  constructor
  · intro hown hother
    have hslot : chooseSlot .rx none s = chooseSlot .rx (some x) s := chooseSlot_none_of_owned hown hother
    exact ⟨exec_envSetup_congr hslot, exec_envOut_congr hslot,
      fun n l => (exec_envOut_congr hslot none n l).trans (exec_envOut_none_pid x n l s), exec_envDiag_congr hslot⟩
  · intro hown hother
    have hslot : chooseSlot .tx none s = chooseSlot .tx (some x) s := chooseSlot_none_of_owned hown hother
    exact ⟨exec_envIn_congr hslot, exec_envDiag_congr hslot⟩

end Sys2Proof.Machine
end

section
/-! The directory index, the status word and what it names (40_bd_directory.md R150 to R152), and the events of the other
endpoints (40_bd_directory.md R156). -/

namespace Sys2Proof.Machine

open Sys2Proof

/-- A status word is the descriptor's index at bits 7:2 and the ignored bits. -/
theorem statWord_toNat (ep : BitVec 4) (d : Dir) (pp : Slot) (rsv : BitVec 2) :
    (statWord ep d pp rsv).toNat = 4 * (bdIndex ep d pp).val + rsv.toNat := by
  simp only [statWord, toNat_append_eq_add, bdIndex]
  omega

theorem statOf_toNat (ep : BitVec 4) (d : Dir) (pp : Slot) : (statOf ep d pp).toNat = 4 * (bdIndex ep d pp).val :=
  statWord_toNat ep d pp 0

/-- Every status word is made of an endpoint, a direction, a slot and the ignored bits. -/
theorem exists_statWord (stat : BitVec 8) : ∃ ep d pp rsv, stat = statWord ep d pp rsv := by
  obtain ⟨tok, ep, d, pp, rsv, h⟩ := exists_eventBits ((0 : BitVec 4) ++ stat)
  refine ⟨ep, d, pp, rsv, ?_⟩
  calc stat = ((0 : BitVec 4) ++ stat).extractLsb' 0 8 := BitVec.extractLsb'_append_eq_right.symm
    _ = (eventBits tok ep d pp rsv).extractLsb' 0 8 := by rw [h]
    _ = statWord ep d pp rsv := BitVec.extractLsb'_append_eq_right

/-- What `resolve` names is the descriptor of its own index. -/
theorem resolve_index_eq_bdIndex (stat : BitVec 8) :
    (resolve stat).index = bdIndex (resolve stat).ep (resolve stat).dir (resolve stat).pp := by
  obtain ⟨ep, d, pp, rsv, rfl⟩ := exists_statWord stat
  rw [resolve_statWord]

theorem resolve_index_val (stat : BitVec 8) : (resolve stat).index.val = stat.toNat / 4 := by
  obtain ⟨ep, d, pp, rsv, rfl⟩ := exists_statWord stat
  have hrsv := rsv.isLt
  rw [resolve_statWord, statWord_toNat]
  dsimp only
  omega

/-- Descriptors of one index have one status word, and `resolve` names a single descriptor. -/
theorem eq_of_bdIndex_eq {ep ep' : BitVec 4} {d d' : Dir} {pp pp' : Slot} (h : bdIndex ep d pp = bdIndex ep' d' pp') :
    ep = ep' ∧ d = d' ∧ pp = pp' := by
  have hstat : statOf ep d pp = statOf ep' d' pp' := BitVec.eq_of_toNat_eq (by rw [statOf_toNat, statOf_toNat, h])
  have hres := congrArg resolve hstat
  rw [statOf, statOf, resolve_statWord, resolve_statWord] at hres
  cases hres
  exact ⟨rfl, rfl, rfl⟩

/-- The status word `4 * i` names the descriptor of index `i`. -/
theorem exists_bdIndex_eq (i : Fin 64) : ∃ ep d pp, bdIndex ep d pp = i := by
  refine ⟨_, _, _, (resolve_index_eq_bdIndex (BitVec.ofNat 8 (4 * i.val))).symm.trans (Fin.ext ?_)⟩
  rw [resolve_index_val, BitVec.toNat_ofNat]
  omega

/-- Each field that `resolve` takes stands at its bits of the status word (40_bd_directory.md R151). -/
theorem resolve_fields (stat : BitVec 8) : (resolve stat).ep.toNat = stat.toNat / 16
    ∧ ((resolve stat).dir = .tx ↔ stat.toNat / 8 % 2 = 1) ∧ ((resolve stat).pp = .odd ↔ stat.toNat / 4 % 2 = 1) := by
  obtain ⟨ep, d, pp, rsv, rfl⟩ := exists_statWord stat
  have hrsv := rsv.isLt
  rw [resolve_statWord, statWord_toNat]
  cases d <;> cases pp <;> simp [bdIndex, Dir.bit, Slot.bit] <;> omega

/-- Settles O5: the index is the status word without its ignored bits, so `resolve`, which reads that word back, inverts it. -/
theorem directoryIndexAndInverse : Obligations.DirectoryIndexAndInverse := by
  refine ⟨fun ep d pp => ⟨?_, ?_, resolve_statWord ep d pp⟩, fun _ _ _ _ _ _ => eq_of_bdIndex_eq, exists_bdIndex_eq, fun stat => ?_⟩
  · cases d <;> cases pp <;> rfl
  · rw [statOf_toNat]
    cases d <;> cases pp <;> simp [bdIndex, Dir.bit, Slot.bit] <;> omega
  · obtain ⟨hep, hdir, hpp⟩ := resolve_fields stat
    exact ⟨hep, hdir, hpp, resolve_index_val stat, resolve_index_eq_bdIndex stat⟩

/-- The endpoint is checked before the token and the descriptor's owner (43_control_fsm.md R235). -/
theorem onEvent_of_ep_ne_zero {ep : BitVec 4} (h : ep ≠ 0) (tok : BitVec 4) (d : Dir) (pp : Slot) (rsv : BitVec 2) (s : State) :
    onEvent (statWord ep d pp rsv) tok s = .error (.refused .endpointNot0) := by
  rw [onEvent, resolve_statWord]
  exact if_pos h

theorem eventStep_of_ep_ne_zero {ep : BitVec 4} (h : ep ≠ 0) (tok : BitVec 4) (d : Dir) (pp : Slot) (rsv : BitVec 2) (s : State) :
    eventStep tok ep d pp rsv s = .next (marked (.refused .endpointNot0) s) := by
  rw [eventStep, onEvent_of_ep_ne_zero h, finishUnit_error]

theorem append_ne_zero_of_left {v w : Nat} {hi : BitVec v} (h : hi ≠ 0) (lo : BitVec w) : hi ++ lo ≠ 0 := by
  intro h0
  apply h
  calc hi = (hi ++ lo).extractLsb' w v := BitVec.extractLsb'_append_eq_left.symm
    _ = 0 := by rw [h0]; exact BitVec.extractLsb'_zero

/-- Settles O27: the part of the endpoint that each of the four rows fixes is not 0. -/
theorem otherEndpointsAreRefused : Obligations.OtherEndpointsAreRefused := by
  intro i s h
  match i, h with
  | .evWrongEndpoint8F tok lo d pp rsv, _ =>
    exact eventStep_of_ep_ne_zero (append_ne_zero_of_left (by decide) lo) tok d pp rsv s
  | .evWrongEndpoint47 tok lo d pp rsv, _ =>
    exact eventStep_of_ep_ne_zero (append_ne_zero_of_left (by decide) lo) tok d pp rsv s
  | .evWrongEndpoint23 tok lo d pp rsv, _ =>
    exact eventStep_of_ep_ne_zero (append_ne_zero_of_left (by decide) lo) tok d pp rsv s
  | .evWrongEndpoint1 tok d pp rsv, _ => exact eventStep_of_ep_ne_zero (by decide) tok d pp rsv s

end Sys2Proof.Machine
end

section
/-! The TX engine as the API, the IN completion and the count of transactions see it (41_tx_engine.md R171, R174, R175, R177). -/

namespace Sys2Proof.Machine

open Sys2Proof

/-! ### Beginning a transfer (41_tx_engine.md R171) -/

/-- Settles O14: `send` is `begin_tx`, whose two answers `beginTx_of_noneOwned` and `beginTx_of_owned` give. -/
theorem sendArmsTheFirstChunk : Obligations.SendArmsTheFirstChunk := by
  intro buf len req cb ctx s
  have hsend : exec (.send buf len req cb ctx) s = exec (.beginTx buf len req cb ctx) s := rfl
  have hexec : exec (.beginTx buf len req cb ctx) s
      = finish s ((beginTx buf len req cb ctx s).map fun r => (r.1, .len r.2)) := rfl
  rw [hsend, hexec]
  constructor
  · intro hn
    rw [beginTx_of_noneOwned _ _ _ _ _ _ hn]
    exact ⟨rfl, rfl⟩
  · intro ho
    rw [beginTx_of_owned _ _ _ _ _ _ ho]
    exact ⟨finish_error _ _, finish_error _ _⟩

/-! ### Advancing a transfer that is not done (41_tx_engine.md R177 (a), (b)) -/

/-- `advance_tx` with more to send passes on what arming the next chunk faults with. -/
theorem advanceTx_of_armChunk_error {s : State} {m : BadMark} (hd : ¬ txDone s)
    (h : armChunk .tx (flipPipeToggle .tx s) = .error m) : advanceTx s = .error m := by
  rw [advanceTx_of_not_done s hd, armTxChunk, h]

theorem advanceTx_next {s : State} (hd : ¬ txDone s) (ha : s.tx.dataBuf.toNat + s.tx.pos.toNat < memSize)
    (ho : (s.bdAt (bd0 .tx s.tx.pingpong)).own = false) : advanceTx s = .ok (txNextChunk s, .more) := by
  rw [advanceTx_of_not_done s hd, armTxChunk_flipped s ha ho]

theorem advanceTx_past_top {s : State} (hd : ¬ txDone s) (ha : memSize ≤ s.tx.dataBuf.toNat + s.tx.pos.toNat) :
    advanceTx s = .error (.fault .r71) :=
  advanceTx_of_armChunk_error hd (armChunk_past_top .tx (flipPipeToggle .tx s) ha)

theorem advanceTx_owned {s : State} (hd : ¬ txDone s) (ha : s.tx.dataBuf.toNat + s.tx.pos.toNat < memSize)
    (ho : (s.bdAt (bd0 .tx s.tx.pingpong)).own = true) : advanceTx s = .error (.fault .r75) :=
  advanceTx_of_armChunk_error hd (armChunk_owned .tx (flipPipeToggle .tx s) ha ho)

/-! ### `OnData` by the answer of the engine (43_control_fsm.md R237, R242) -/

section OnData

variable {d : Dir} {i : Fin 64} {s t : State} {m : BadMark}

theorem onData_of_advance_error (hg : s.stage ≠ .idle) (h : advance d i s = .error m) : onData d i s = .error m := by
  cases hs : s.stage with
  | idle => exact absurd hs hg
  | data => simp only [onData, hs, h]
  | status => simp only [onData, hs, h]

theorem onData_data_of_more (hg : s.stage = .data) (h : advance d i s = .ok (t, .more)) : onData d i s = .ok t := by
  simp only [onData, hg, h]

theorem onData_data_of_finished (hg : s.stage = .data) (h : advance d i s = .ok (t, .finished)) :
    onData d i s = enterStatus (flipDir d) t := by
  simp only [onData, hg, h]

end OnData

/-- An IN event whose descriptor is handed back is `OnData` (43_control_fsm.md R235). -/
theorem exec_evInTx_of_not_owned {pp : Slot} {s : State} (rsv : BitVec 2) (h : (s.bdAt (bd0 .tx pp)).own = false) :
    exec (.evInTx pp rsv) s = finishUnit s (onData .tx (bd0 .tx pp) s) := by
  have hev : exec (.evInTx pp rsv) s = finishUnit s (onEvent (statWord 0 .tx pp rsv) tokIn s) := rfl
  rw [hev, onEvent_in, h, if_neg Bool.false_ne_true]

/-- Settles O31: each answer of `advance_tx` with more to send is the answer of `OnData`. -/
theorem inEventArmsTheNextChunk : Obligations.InEventArmsTheNextChunk := by
  intro pp rsv s hpp hg hd
  have hactive : s.stage ≠ .idle := by simp [hg]
  rw [exec_evInTx_of_not_owned rsv hpp]
  refine ⟨fun ha => ⟨fun ho => ?_, fun ho => ?_⟩, fun ha => ?_⟩
  · rw [onData_data_of_more (d := .tx) hg (advanceTx_next hd ha ho), finishUnit_ok]
  · rw [onData_of_advance_error (d := .tx) hactive (advanceTx_owned hd ha ho), finishUnit_error]
  · rw [onData_of_advance_error (d := .tx) hactive (advanceTx_past_top hd ha), finishUnit_error]

/-- Settles O32: the finished engine's state enters the status stage of the other direction, and finishing touches no
descriptor. -/
theorem inEventEndsTheDataStage : Obligations.InEventEndsTheDataStage := by
  intro pp rsv s hpp hg hd
  have hdata : onData .tx (bd0 .tx pp) s = enterStatus .rx (txFinished s) :=
    onData_data_of_finished hg (advanceTx_of_done s hd)
  have howned : noneOwned .rx (txFinished s) ↔ noneOwned .rx s := Iff.rfl
  rw [exec_evInTx_of_not_owned rsv hpp, hdata, ← howned]
  refine ⟨fun hn => ?_, fun ho => ?_⟩
  · rw [enterStatus_rx_of_noneOwned _ hn, finishUnit_ok]
  · rw [enterStatus_rx_of_owned _ ho, finishUnit_error]

/-! ### How many chunks are still to be armed (41_tx_engine.md R175) -/

/-- The chunks still to be armed for `rest` bytes, a zero-length packet owed after a last full chunk or not. -/
def chunksToArm (rest m : Nat) (owed : Bool) : Nat := if owed then rest / m + 1 else (rest + m - 1) / m

theorem chunksToArm_eq_zero_iff {rest m : Nat} {owed : Bool} (hm : 0 < m) :
    chunksToArm rest m owed = 0 ↔ rest = 0 ∧ owed = false := by
  cases owed with
  | false =>
    simp only [chunksToArm, Bool.false_eq_true, if_false, Nat.div_eq_zero_iff_lt hm, and_true]
    omega
  | true => simp [chunksToArm]

/-- Arming one chunk, with the owed packet cleared where it is short, leaves one chunk less to be armed. -/
theorem chunksToArm_step {rest m : Nat} {owed : Bool} (hm : 0 < m) (h : chunksToArm rest m owed ≠ 0) :
    chunksToArm rest m owed = chunksToArm (rest - min rest m) m (owed && decide (m ≤ min rest m)) + 1 := by
  by_cases hfull : m ≤ rest
  · have hn : min rest m = m := Nat.min_eq_right hfull
    rw [hn]
    cases owed with
    | false =>
      have hrest : rest + m - 1 = (rest - m + m - 1) + m := by omega
      simp only [chunksToArm, Bool.false_and, Bool.false_eq_true, if_false]
      rw [hrest, Nat.add_div_right _ hm]
    | true =>
      simp only [chunksToArm, Bool.true_and, decide_eq_true (Nat.le_refl m), if_true]
      rw [Nat.div_eq_sub_div hm hfull]
  · have hn : min rest m = rest := Nat.min_eq_left (Nat.le_of_not_le hfull)
    have hend : chunksToArm 0 m false = 0 := (chunksToArm_eq_zero_iff hm).2 ⟨rfl, rfl⟩
    rw [hn, decide_eq_false hfull, Bool.and_false, Nat.sub_self, hend]
    cases owed with
    | false =>
      have hpos : rest ≠ 0 := fun h0 => h ((chunksToArm_eq_zero_iff hm).2 ⟨h0, rfl⟩)
      have hrest : rest + m - 1 = (rest - 1) + m := by omega
      simp only [chunksToArm, Bool.false_eq_true, if_false]
      rw [hrest, Nat.add_div_right _ hm, Nat.div_eq_of_lt (by omega)]
    | true => simp only [chunksToArm, if_true, Nat.div_eq_of_lt (Nat.lt_of_not_le hfull)]

/-- `C(L)` of R175 for an effective length is the chunks to arm, but for the empty transaction of length 0. -/
theorem chunkCount_eq_chunksToArm {l req m : Nat} (hm : 0 < m) (hl : l ≠ 0) (hreq : l ≤ req) :
    chunkCount l req m = chunksToArm l m (decide (l < req)) := by
  have hsplit := Nat.div_add_mod l m
  have hlt := Nat.mod_lt l hm
  simp only [chunkCount, chunksToArm, if_neg hl, decide_eq_true_eq]
  by_cases hmod : l % m = 0
  · have hceil : (l + m - 1) / m = l / m := by
      rw [show l + m - 1 = (m - 1) + m * (l / m) by omega, Nat.add_mul_div_left _ _ hm, Nat.div_eq_of_lt (by omega), Nat.zero_add]
    rw [if_neg (not_not.2 hmod), hceil]
    by_cases he : l = req
    · rw [if_pos he, if_neg (by omega)]
    · rw [if_neg he, if_pos (by omega)]
  · have hceil : (l + m - 1) / m = l / m + 1 := by
      rw [show l + m - 1 = (l % m - 1) + m * (l / m) + m by omega, Nat.add_div_right _ hm, Nat.add_mul_div_left _ _ hm,
        Nat.div_eq_of_lt (by omega), Nat.zero_add]
    rw [if_pos hmod, hceil, ite_self]

/-- The first chunk is armed whatever the length, so `C(L)` is one more than the chunks to arm after it. -/
theorem chunkCount_eq_after_first {l req m : Nat} (hm : 0 < m) (hreq : l ≤ req) :
    chunkCount l req m = chunksToArm (l - min l m) m (decide (l < req) && decide (m ≤ min l m)) + 1 := by
  by_cases hl : l = 0
  · have hshort : decide (m ≤ min 0 m) = false := decide_eq_false (by omega)
    have hend : chunksToArm 0 m false = 0 := (chunksToArm_eq_zero_iff hm).2 ⟨rfl, rfl⟩
    subst hl
    rw [hshort, Bool.and_false, Nat.zero_sub, hend]
    rfl
  · have hsome : chunksToArm l m (decide (l < req)) ≠ 0 := fun h0 => hl ((chunksToArm_eq_zero_iff hm).1 h0).1
    rw [chunkCount_eq_chunksToArm hm hl hreq, chunksToArm_step hm hsome]

/-! ### A transfer run to its end (41_tx_engine.md R175) -/

/-- The chunks a pipe still has to arm for its transfer. -/
def Pipe.chunksToArm (p : Pipe) : Nat :=
  Machine.chunksToArm (p.transferSize.toNat - p.pos.toNat) p.epMaxsize.toNat p.shortTransfer

/-- A pipe in a TX transfer: its packets hold a byte, its counters are in order, and the buffer with its end is inside `MEM`. -/
structure Pipe.InTransfer (p : Pipe) : Prop where
  maxsize : 0 < p.epMaxsize.toNat
  pos : p.pos.toNat ≤ p.transferSize.toNat
  buf : p.dataBuf.toNat + p.transferSize.toNat < memSize

theorem txDone_iff {s : State} (h : s.tx.InTransfer) : txDone s ↔ s.tx.chunksToArm = 0 := by
  rw [Pipe.chunksToArm, chunksToArm_eq_zero_iff h.maxsize, Nat.sub_eq_zero_iff_le, txDone]

/-- The next chunk's bytes are counted without wrapping. -/
theorem txNextChunk_pos_toNat {s : State} (h : s.tx.InTransfer) :
    (txNextChunk s).tx.pos.toNat
      = s.tx.pos.toNat + min (s.tx.transferSize.toNat - s.tx.pos.toNat) s.tx.epMaxsize.toNat := by
  have hpos := h.pos
  have hsize := s.tx.transferSize.isLt
  exact (BitVec.toNat_ofNat _ _).trans (Nat.mod_eq_of_lt (by omega))

theorem txNextChunk_inTransfer {s : State} (h : s.tx.InTransfer) : (txNextChunk s).tx.InTransfer where
  maxsize := h.maxsize
  pos := by
    have hpos := h.pos
    rw [txNextChunk_pos_toNat h]
    show _ ≤ s.tx.transferSize.toNat
    omega
  buf := h.buf

theorem chunksToArm_txNextChunk {s : State} (h : s.tx.InTransfer) (hd : ¬ txDone s) :
    s.tx.chunksToArm = (txNextChunk s).tx.chunksToArm + 1 := by
  rw [txDone_iff h] at hd
  rw [Pipe.chunksToArm, chunksToArm_step h.maxsize hd, Pipe.chunksToArm, txNextChunk_pos_toNat h, ← Nat.sub_sub]
  rfl

/-- The first chunk of `begin_tx` leaves `C(L)` less one to be armed. -/
theorem chunkCount_eq_armedTx {buf : Addr} {len req : Len} {cb : Option CallbackId} {ctx : Addr} {s : State}
    (hm : 0 < s.tx.epMaxsize.toNat) :
    chunkCount (minLen len req).toNat req.toNat s.tx.epMaxsize.toNat = (armedTx buf len req cb ctx s).tx.chunksToArm + 1 := by
  have hreq : (minLen len req).toNat ≤ req.toNat := by rw [minLen_toNat]; exact Nat.min_le_right _ _
  have hpos : (armedTx buf len req cb ctx s).tx.pos.toNat = min (minLen len req).toNat s.tx.epMaxsize.toNat :=
    (BitVec.toNat_ofNat _ _).trans (Nat.mod_eq_of_lt (lt_of_le_of_lt (Nat.min_le_left _ _) (minLen len req).isLt))
  rw [chunkCount_eq_after_first hm hreq, Pipe.chunksToArm, hpos]
  rfl

@[simp] theorem txHandedBack_tx (s : State) : (txHandedBack s).tx = s.tx := rfl

theorem txHandedBack_noneOwned (s : State) : noneOwned .tx (txHandedBack s) := by
  have hne : (bd0 .tx .odd).val ≠ (bd0 .tx .even).val := by decide
  constructor
  · simp [txHandedBack, disown, State.bdAt, Vector.getElem_set_ne, hne]
  · simp [txHandedBack, disown, State.bdAt]

/-- A transfer with a chunk armed and `k` still to be armed takes `k + 1` transactions. -/
theorem txTransactions_of_chunksToArm {k : Nat} {s : State} (h : s.tx.InTransfer) (hk : s.tx.chunksToArm = k) :
    txTransactions (k + 1) s = some (k + 1) := by
  induction k generalizing s with
  | zero =>
    have hd : txDone (txHandedBack s) := (txDone_iff h).2 hk
    simp only [txTransactions, advanceTx_of_done _ hd]
  | succ k ih =>
    have hd : ¬ txDone (txHandedBack s) := fun hd => by
      have h0 : s.tx.chunksToArm = 0 := (txDone_iff h).1 hd
      omega
    have ha : s.tx.dataBuf.toNat + s.tx.pos.toNat < memSize := (Nat.add_le_add_left h.pos _).trans_lt h.buf
    have hnext := advanceTx_next hd ha (noneOwned_slot (txHandedBack_noneOwned s) _)
    have hless := chunksToArm_txNextChunk (s := txHandedBack s) h hd
    have hrec := ih (txNextChunk_inTransfer (s := txHandedBack s) h) (by rw [txHandedBack_tx] at hless; omega)
    rw [txTransactions]
    simp only [hnext, hrec, Option.map_some]

/-- Settles O59: the first chunk leaves `C(L)` less one to be armed, and every completion but the last arms one of them. -/
theorem transferTakesTheStatedTransactions : Obligations.TransferTakesTheStatedTransactions := by
  intro buf len req cb ctx s t l hinv hn hbuf hbegin
  obtain ⟨-, rfl, rfl⟩ := beginTx_ok hbegin
  obtain ⟨-, hmax⟩ := hinv.txPipe
  obtain ⟨-, -, -, -, hmin⟩ := Params.wf_bounds hinv.paramsWf
  have hm : 0 < s.tx.epMaxsize.toNat := by rw [hmax]; omega
  have htransfer : (armedTx buf len req cb ctx s).tx.InTransfer :=
    { maxsize := hm
      pos := toNat_ofNat_le (Nat.min_le_left _ _)
      buf := by rw [← minLen_toNat] at hbuf; exact hbuf }
  dsimp only
  rw [← hmax, chunkCount_eq_armedTx hm]
  exact txTransactions_of_chunksToArm htransfer rfl

end Sys2Proof.Machine
end

section
/-! The RX engine as the API and the OUT completion see it (42_rx_engine.md R201, R203, R206; 43_control_fsm.md R237, R242, R243). -/

namespace Sys2Proof.Machine

open Sys2Proof

/-! ### Beginning a transfer (42_rx_engine.md R201) -/

/-- Settles O15: `receive` is `begin_rx`, whose two answers `beginRx_of_noneOwned` and `beginRx_of_owned` give. -/
theorem receiveArmsTheFirstChunk : Obligations.ReceiveArmsTheFirstChunk := by
  intro buf max cb ctx s
  have hreceive : exec (.receive buf max cb ctx) s = exec (.beginRx buf max cb ctx) s := rfl
  have hexec : exec (.beginRx buf max cb ctx) s
      = finish s ((beginRx buf max cb ctx s).map fun r => (r.1, .len r.2)) := rfl
  rw [hreceive, hexec]
  constructor
  · intro hn
    rw [beginRx_of_noneOwned _ _ _ _ _ hn]
    exact ⟨rfl, rfl⟩
  · intro ho
    rw [beginRx_of_owned _ _ _ _ _ ho]
    exact ⟨finish_error _ _, finish_error _ _⟩

/-! ### Advancing a transfer that is not done (42_rx_engine.md R206) -/

/-- The state in which `advance_rx` arms the next chunk: the toggle flipped, `r` bytes counted (42_rx_engine.md R206). -/
def rxCounted (r : Nat) (s : State) : State :=
  { s with rx := { s.rx with data01 := flipToggle s.rx.data01, pos := BitVec.ofNat 32 (s.rx.pos.toNat + r) } }

section AdvanceRx

variable {i : Fin 64} {s : State}

/-- The next chunk starts after the counted bytes, since their count does not wrap. -/
theorem rxCounted_chunk_start {r : Nat} (hroom : s.rx.pos.toNat + r ≤ s.rx.transferSize.toNat) :
    ((rxCounted r s).pipe .rx).dataBuf.toNat + ((rxCounted r s).pipe .rx).pos.toNat
      = s.rx.dataBuf.toNat + (s.rx.pos.toNat + r) :=
  congrArg (s.rx.dataBuf.toNat + ·) (rxCount_toNat s r hroom)

/-- `advance_rx` with room left passes on what arming the next chunk faults with. -/
theorem advanceRx_of_armChunk_error {m : BadMark}
    (hroom : s.rx.pos.toNat + (s.bdAt i).bc.toNat ≤ s.rx.transferSize.toNat) (hd : ¬ rxDone (s.bdAt i).bc.toNat s)
    (h : armChunk .rx (rxCounted (s.bdAt i).bc.toNat s) = .error m) : advanceRx i s = .error m := by
  rw [rxCounted] at h
  rw [advanceRx_of_not_done i s hroom hd, h]

theorem advanceRx_past_top (hroom : s.rx.pos.toNat + (s.bdAt i).bc.toNat ≤ s.rx.transferSize.toNat)
    (hd : ¬ rxDone (s.bdAt i).bc.toNat s)
    (ha : memSize ≤ s.rx.dataBuf.toNat + (s.rx.pos.toNat + (s.bdAt i).bc.toNat)) : advanceRx i s = .error (.fault .r71) := by
  rw [← rxCounted_chunk_start hroom] at ha
  exact advanceRx_of_armChunk_error hroom hd (armChunk_past_top .rx _ ha)

theorem advanceRx_owned (hroom : s.rx.pos.toNat + (s.bdAt i).bc.toNat ≤ s.rx.transferSize.toNat)
    (hd : ¬ rxDone (s.bdAt i).bc.toNat s)
    (ha : s.rx.dataBuf.toNat + (s.rx.pos.toNat + (s.bdAt i).bc.toNat) < memSize)
    (ho : (s.bdAt (bd0 .rx s.rx.pingpong)).own = true) : advanceRx i s = .error (.fault .r75) := by
  rw [← rxCounted_chunk_start hroom] at ha
  exact advanceRx_of_armChunk_error hroom hd (armChunk_owned .rx _ ha ho)

end AdvanceRx

/-! ### The OUT completion (43_control_fsm.md R235, R237) -/

/-- In `Status`, a finished engine's state is where the status stage is done (43_control_fsm.md R237, R243). -/
theorem onData_status_of_finished {d : Dir} {i : Fin 64} {s t : State} (hg : s.stage = .status)
    (h : advance d i s = .ok (t, .finished)) : onData d i s = statusDone t := by
  simp only [onData, hg, h]

/-- An OUT event whose descriptor is handed back is `OnData` (43_control_fsm.md R235). -/
theorem exec_evOutRx_of_not_owned {pp : Slot} {s : State} (rsv : BitVec 2) (h : (s.bdAt (bd0 .rx pp)).own = false) :
    exec (.evOutRx pp rsv) s = finishUnit s (onData .rx (bd0 .rx pp) s) := by
  have hev : exec (.evOutRx pp rsv) s = finishUnit s (onEvent (statWord 0 .rx pp rsv) tokOut s) := rfl
  rw [hev, onEvent_out, h, if_neg Bool.false_ne_true]

/-- Settles O35: each answer of `advance_rx` with room left is the answer of `OnData`. -/
theorem outEventArmsTheNextChunk : Obligations.OutEventArmsTheNextChunk := by
  intro pp rsv s r hpp hg hroom hd
  have hactive : s.stage ≠ .idle := by simp [hg]
  rw [exec_evOutRx_of_not_owned rsv hpp]
  refine ⟨fun ha => ⟨fun ho => ?_, fun ho => ?_⟩, fun ha => ?_⟩
  · rw [onData_data_of_more (d := .rx) hg (advanceRx_of_room _ _ hroom hd ha ho), finishUnit_ok]
  · rw [onData_of_advance_error (d := .rx) hactive (advanceRx_owned hroom hd ha ho), finishUnit_error]
  · rw [onData_of_advance_error (d := .rx) hactive (advanceRx_past_top hroom hd ha), finishUnit_error]

/-- Settles O36: the stage decides what follows the finished engine's state, and finishing touches no descriptor. -/
theorem outEventEndsTheTransfer : Obligations.OutEventEndsTheTransfer := by
  intro pp rsv s r hpp hroom hd
  have hadvance : advance .rx (bd0 .rx pp) s = .ok (rxFinished r s, .finished) := advanceRx_of_done _ _ hroom hd
  have howned (d : Dir) : noneOwned d (rxFinished r s) ↔ noneOwned d s := Iff.rfl
  rw [exec_evOutRx_of_not_owned rsv hpp, ← howned, ← howned]
  refine ⟨fun hg hn => ?_, fun hg ho => ?_, fun hg hn => ?_, fun hg ho => ?_⟩
  · rw [onData_data_of_finished hg hadvance, flipDir, enterStatus_tx_of_noneOwned _ hn, finishUnit_ok]
  · rw [onData_data_of_finished hg hadvance, flipDir, enterStatus_tx_of_owned _ ho, finishUnit_error]
  · rw [onData_status_of_finished hg hadvance, statusDone_of_noneOwned _ hn, finishUnit_ok]
  · rw [onData_status_of_finished hg hadvance, statusDone_of_owned _ ho, finishUnit_error]

/-- Settles O37: the overrun is the engine's fault, which `OnData` passes on in `Data` and in `Status`. -/
theorem outOverrunFaults : Obligations.OutOverrunFaults := by
  intro pp rsv s hpp hactive hover
  rw [exec_evOutRx_of_not_owned rsv hpp, onData_of_advance_error (d := .rx) hactive (advanceRx_of_overrun _ _ hover),
    finishUnit_error]

end Sys2Proof.Machine
end

section
/-! When `HW.ADDR` changes (43_control_fsm.md R243, R244; 70_reset_and_hazards.md R426). -/

namespace Sys2Proof.Machine

open Sys2Proof

/-- The commit of the pending address at the end of a status stage (43_control_fsm.md R243). -/
def CommitsAddress (s t : State) : Prop :=
  s.stage = .status ∧ s.devState = .settingAddress ∧ t.hwAddr = s.pendingAddress ∧ t.devState = .address
    ∧ t.stage = .idle ∧ t.pendingAddress = s.pendingAddress

theorem commitsAddress_statusDoneState {s : State} (hg : s.stage = .status) :
    (statusDoneState s).hwAddr = s.hwAddr ∨ CommitsAddress s (statusDoneState s) := by
  unfold statusDoneState
  split
  · next hdev => exact .inr ⟨hg, hdev, rfl, rfl, rfl, rfl⟩
  · exact .inl rfl

/-- An IN or OUT completion changes `HW.ADDR` only where it ends the status stage. -/
theorem onData_hwAddr {d : Dir} {i : Fin 64} {s t : State} (h : onData d i s = .ok t) :
    t.hwAddr = s.hwAddr ∨ CommitsAddress s t := by
  obtain ⟨-, -, rfl⟩ | ⟨-, -, -, -, -, rfl⟩ | ⟨-, -, -, -, rfl⟩ | ⟨-, hg, -, -, rfl⟩ | ⟨-, -, -, -, -, -, rfl⟩ |
    ⟨-, -, -, -, -, rfl⟩ | ⟨-, -, hg, -, -, rfl⟩ := onData_ok h
  · exact .inl rfl
  · exact .inl rfl
  · exact .inl rfl
  · exact commitsAddress_statusDoneState (s := txFinished s) hg
  · exact .inl rfl
  · exact .inl rfl
  · exact commitsAddress_statusDoneState (s := rxFinished _ s) hg

theorem Handled.hwAddr {s t : State} {o : ReqOutcome} (h : Handled s t o) : t.hwAddr = s.hwAddr := by
  obtain ⟨q, hq, ⟨rfl, -⟩ | ⟨-, ⟨_, _, _, _, _, -, rfl⟩ | ⟨_, _, _, _, -, rfl⟩⟩⟩ := h <;> exact hq.hwAddr

/-- The SETUP step defers an address: it leaves `HW.ADDR` alone (44_std_requests.md R274). -/
theorem runRequest_hwAddr {r : ControlReq} {s t : State} {o : ReqOutcome} (h : runRequest handle r s = .ok (t, o)) :
    t.hwAddr = s.hwAddr := by
  obtain ⟨u, hu, ⟨-, -, -, rfl⟩ | ⟨-, -, -, rfl⟩ | ⟨-, rfl⟩ | ⟨-, -, rfl⟩⟩ := runRequest_ok h <;>
    exact hu.hwAddr

theorem onSetup_hwAddr {i : Fin 64} {s t : State} (h : onSetup i s = .ok t) : t.hwAddr = s.hwAddr := by
  obtain ⟨b, o, -, hrun⟩ := onSetup_ok h
  exact runRequest_hwAddr hrun

theorem releaseDiag_hwAddr (i : Fin 64) (tok : BitVec 4) (rel : Bool) (s : State) :
    (releaseDiag i tok rel s).hwAddr = s.hwAddr := by
  unfold releaseDiag
  split <;> rfl

/-- Settles O49: of the ways a step can run, only a reset and the end of a status stage write `HW.ADDR`. -/
theorem addressChangesOnlyAtTheCommit : Obligations.AddressChangesOnlyAtTheCommit := by
  intro i s t h hne
  cases ran_of_exec h with
  | rst => exact .inl ⟨.inl rfl, rfl⟩
  | bus => exact .inl ⟨.inr rfl, rfl⟩
  | evI _ u pp rsv _ hdata => exact .inr ((onData_hwAddr hdata).resolve_left hne)
  | evO _ u pp rsv _ hdata => exact .inr ((onData_hwAddr hdata).resolve_left hne)
  | envI _ pp x u _ hdata => exact .inr ((onData_hwAddr (s := inTaken x s) hdata).resolve_left hne)
  | envO _ pp pid n bytes x u l k _ _ _ _ _ hdata =>
    exact .inr ((onData_hwAddr (s := outLanded x l { s with fresh := k }) hdata).resolve_left hne)
  | row _ _ r u o _ hrun => exact absurd (runRequest_hwAddr hrun) hne
  | evS _ u pp rsv _ hset => exact absurd (onSetup_hwAddr hset) hne
  | envS _ pp x b u _ _ _ hset => exact absurd (onSetup_hwAddr (s := setupLanded x b s) hset) hne
  | envD _ tok d pp rel x b k => exact absurd (releaseDiag_hwAddr (bd0 d x) tok.code b { s with fresh := k }) hne
  | small _ q src len v a l r hq _ => exact absurd hq.hwAddr hne
  | fails | same | tx | rx | stall => exact absurd rfl hne

end Sys2Proof.Machine
end

section
/-! Events by the checks of `OnEvent`: the diagnostic token, the descriptor's owner, then token and direction
(43_control_fsm.md R235, R246, R247). -/

namespace Sys2Proof.Machine

open Sys2Proof

section EventStep

variable {tok : BitVec 4} {d : Dir} {pp : Slot} {s : State}

/-- A diagnostic token is answered before the descriptor's owner is looked at (43_control_fsm.md R246). -/
theorem eventStep_of_diag (rsv : BitVec 2) (hdiag : isDiag tok = true) :
    eventStep tok 0 d pp rsv s = .next (returned .nothing s) := by
  rw [eventStep, onEvent_statWord, if_pos hdiag, finishUnit_ok]

/-- Any other token of a descriptor still owned is fault(R235). -/
theorem eventStep_of_owned (rsv : BitVec 2) (hdiag : isDiag tok = false) (ho : (s.bdAt (bd0 d pp)).own = true) :
    eventStep tok 0 d pp rsv s = .next (marked (.fault .r235) s) := by
  rw [eventStep, onEvent_statWord, hdiag, if_neg Bool.false_ne_true, if_pos ho, finishUnit_error]

/-- A token and direction that the peripheral cannot produce (43_control_fsm.md R247). -/
def IllegalToken (tok : BitVec 4) (d : Dir) : Prop :=
  isDiag tok = false ∧ ¬ (tok = tokSetup ∧ d = .rx) ∧ ¬ ((tok = tokOut ∧ d = .rx) ∨ (tok = tokIn ∧ d = .tx))

/-- An illegal token is fault(R247), where the owner's check, which comes first, passes. -/
theorem eventStep_of_illegal (pp : Slot) (rsv : BitVec 2) (s : State) (h : IllegalToken tok d) :
    ((s.bdAt (bd0 d pp)).own = false → eventStep tok 0 d pp rsv s = .next (marked (.fault .r247) s))
      ∧ ((s.bdAt (bd0 d pp)).own = true → eventStep tok 0 d pp rsv s = .next (marked (.fault .r235) s)) := by
  obtain ⟨hdiag, hsetup, hdata⟩ := h
  refine ⟨fun ho => ?_, eventStep_of_owned rsv hdiag⟩
  rw [eventStep, onEvent_statWord, hdiag, ho, if_neg Bool.false_ne_true, if_neg Bool.false_ne_true, if_neg hsetup,
    if_neg hdata, finishUnit_error]

/-- A token that is none of the peripheral's is illegal in both directions. -/
theorem illegalToken_of_unknown (d : Dir)
    (h : isDiag tok = false ∧ tok ≠ tokSetup ∧ tok ≠ tokOut ∧ tok ≠ tokIn) : IllegalToken tok d := by
  obtain ⟨hdiag, hsetup, hout, hin⟩ := h
  exact ⟨hdiag, fun ⟨e, _⟩ => hsetup e, fun e => e.elim (fun ⟨e, _⟩ => hout e) (fun ⟨e, _⟩ => hin e)⟩

end EventStep

/-- Settles O25: each of the five rows has a diagnostic token. -/
theorem diagnosticEventsChangeNothing : Obligations.DiagnosticEventsChangeNothing := by
  intro i s h
  match i, h with
  | .evDiagTimeout d pp rsv, _ | .evDiagAck d pp rsv, _ | .evDiagNak d pp rsv, _ | .evDiagStall d pp rsv, _
  | .evDiagDataerr d pp rsv, _ => exact eventStep_of_diag rsv rfl

/-- The token codes 4 to 7 name nothing (30_encoding.md R108). -/
theorem unknown_tok47 : ∀ lo : BitVec 2, let tok := (1 : BitVec 2) ++ lo
    isDiag tok = false ∧ tok ≠ tokSetup ∧ tok ≠ tokOut ∧ tok ≠ tokIn := by
  decide

/-- Settles O26: the token of each of the eight rows is unknown, or is one of the other direction. -/
theorem illegalEventsFault : Obligations.IllegalEventsFault := by
  intro i k s h
  match i, h with
  | .evIllegalSetupTx pp rsv, rfl => exact eventStep_of_illegal pp rsv s ⟨rfl, by decide, by decide⟩
  | .evIllegalOutTx pp rsv, rfl => exact eventStep_of_illegal pp rsv s ⟨rfl, by decide, by decide⟩
  | .evIllegalInRx pp rsv, rfl => exact eventStep_of_illegal pp rsv s ⟨rfl, by decide, by decide⟩
  | .evIllegalTok3 d pp rsv, rfl => exact eventStep_of_illegal pp rsv s (illegalToken_of_unknown d (by decide))
  | .evIllegalTok47 lo d pp rsv, rfl => exact eventStep_of_illegal pp rsv s (illegalToken_of_unknown d (unknown_tok47 lo))
  | .evIllegalTok8 d pp rsv, rfl => exact eventStep_of_illegal pp rsv s (illegalToken_of_unknown d (by decide))
  | .evIllegalTokB d pp rsv, rfl => exact eventStep_of_illegal pp rsv s (illegalToken_of_unknown d (by decide))
  | .evIllegalTokC d pp rsv, rfl => exact eventStep_of_illegal pp rsv s (illegalToken_of_unknown d (by decide))

/-- Settles O28: none of the three tokens is diagnostic, so the owner's check decides. -/
theorem eventOfAnOwnedDescriptorFaults : Obligations.EventOfAnOwnedDescriptorFaults :=
  fun _ rsv _ => ⟨fun ho => ⟨eventStep_of_owned rsv rfl ho, eventStep_of_owned rsv rfl ho⟩, eventStep_of_owned rsv rfl⟩

end Sys2Proof.Machine
end

section
/-! The SETUP event: the request row that the 8 bytes in its buffer select (43_control_fsm.md R236, 30_encoding.md R114). -/

namespace Sys2Proof.Machine

open Sys2Proof

/-- A SETUP event whose descriptor is handed back is `OnSetup` (43_control_fsm.md R235). -/
theorem exec_evSetupRx_of_not_owned {pp : Slot} {s : State} (rsv : BitVec 2) (h : (s.bdAt (bd0 .rx pp)).own = false) :
    exec (.evSetupRx pp rsv) s = finishUnit s (onSetup (bd0 .rx pp) s) := by
  have hev : exec (.evSetupRx pp rsv) s = finishUnit s (onEvent (statWord 0 .rx pp rsv) tokSetup s) := rfl
  rw [hev, onEvent_setup, h, if_neg Bool.false_ne_true]

theorem memReadSetup_past_top {a : Addr} (s : State) (h : memSize < a.toNat + 8) :
    memReadSetup a s = .error (.fault .r71) := if_neg (Nat.not_le.2 h)

theorem onSetup_past_top {i : Fin 64} {s : State} (h : memSize < (s.bdAt i).addr.toNat + 8) :
    onSetup i s = .error (.fault .r71) := by
  simp only [onSetup, memReadSetup_past_top s h]

theorem onSetup_of_bytes {i : Fin 64} {s : State} {b : SetupData} (hfit : (s.bdAt i).addr.toNat + 8 ≤ memSize)
    (hb : b.toList = memGetList s.mem (s.bdAt i).addr.toNat 8) :
    onSetup i s = dropResult (runRequest handle (decodeReq b) s) := by
  simp only [onSetup, memReadSetup_of_bytes s _ b hfit hb]

/-- A request row and the SETUP step without its outcome end in one state, whatever the handler answers. -/
theorem exists_requestStep (h : ControlReq → State → Res (State × ReqOutcome)) (r : ControlReq) (s : State) :
    ∃ t, requestStep h r s = .next t ∧ finishUnit s (dropResult (runRequest h r s)) = .next (returned .nothing t) := by
  rw [requestStep]
  cases runRequest h r s with
  | error m => exact ⟨_, finish_error s m, finishUnit_error s m⟩
  | ok p => exact ⟨_, finish_ok s p.1 (.outcome p.2), finishUnit_ok s p.1⟩

/-- The row a request selects runs `Handle` (30_encoding.md R114). -/
theorem exec_instrOfReq (r : ControlReq) (s : State) : exec (instrOfReq r) s = requestStep handle r s :=
  exec_row s (req?_instrOfReq r)

/-- Settles O29: the event and the row both run the SETUP step with `Handle`. -/
theorem setupEventRunsTheRequestRow : Obligations.SetupEventRunsTheRequestRow := by
  intro pp rsv s b ho
  rw [exec_evSetupRx_of_not_owned rsv ho]
  refine ⟨fun hfit hb => ?_, fun htop => ?_⟩
  · rw [onSetup_of_bytes hfit hb, exec_instrOfReq]
    exact exists_requestStep handle (decodeReq b) s
  · rw [onSetup_past_top htop, finishUnit_error]

/-! ### SET_ADDRESS (44_std_requests.md R274) -/

theorem handle_of_setAddress {r : ControlReq} (htype : r.type = 0) (hcode : r.request = 0x05) (s : State) :
    handle r s = .ok ({ s with pendingAddress := r.value.setWidth 7, devState := .settingAddress }, .noData) := by
  have hset : handle r s = setAddress r s := by simp [handle, htype, hcode]
  have haddr : reqAddress r = r.value.setWidth 7 :=
    (BitVec.setWidth_eq_extractLsb' (by decide)).symm
  rw [hset, setAddress, haddr]
  rfl

/-- Settles O30: the row of SET_ADDRESS, whose status IN finds no TX descriptor owned after the SETUP's cancellation. -/
theorem setupEventOfSetAddress : Obligations.SetupEventOfSetAddress := by
  intro pp rsv s b ho hfit hb htype hcode hdir
  obtain ⟨t, hrow, hev⟩ := (setupEventRunsTheRequestRow pp rsv s b ho).1 hfit hb
  have hn : noneOwned .tx (requestState (decodeReq b) s) := requestState_noneOwned_tx _ _
  have hdone := requestStep_of_noData (handle_of_setAddress htype hcode _) (by rw [if_pos hdir]; exact hn)
  rw [exec_instrOfReq, hdone, noDataState, if_pos hdir] at hrow
  cases hrow
  exact hev

end Sys2Proof.Machine
end

section
/-! IN and OUT completions in `Idle` and in `Status` (43_control_fsm.md R237, R243, R245). -/

namespace Sys2Proof.Machine

open Sys2Proof

section OnData

variable {d : Dir} {i : Fin 64} {s : State}

theorem onData_idle (hg : s.stage = .idle) : onData d i s = protocolError s := by
  simp only [onData, hg]

theorem onData_status_of_more {t : State} (hg : s.stage = .status) (h : advance d i s = .ok (t, .more)) :
    onData d i s = .error (.fault .r237) := by
  simp only [onData, hg, h]

/-- In `Idle` no engine is asked: both answers are those of `ProtocolError` (43_control_fsm.md R245). -/
theorem finishUnit_onData_idle (hg : s.stage = .idle) :
    (noneOwned .rx s → finishUnit s (onData d i s) = .next (returned .nothing (protocolErrorState s)))
      ∧ (¬ noneOwned .rx s → finishUnit s (onData d i s) = .next (marked (.fault .r201) s)) := by
  rw [onData_idle hg]
  refine ⟨fun hn => ?_, fun ho => ?_⟩
  · rw [protocolError_of_noneOwned _ hn, finishUnit_ok]
  · rw [protocolError_of_owned _ ho, finishUnit_error]

end OnData

/-- Settles O33: the finished engine's state is where the status stage is done, and finishing touches no descriptor. -/
theorem inEventEndsTheStatusStage : Obligations.InEventEndsTheStatusStage := by
  intro pp rsv s hpp hg hd
  have hdata : onData .tx (bd0 .tx pp) s = statusDone (txFinished s) :=
    onData_status_of_finished hg (advanceTx_of_done s hd)
  have howned : noneOwned .rx (txFinished s) ↔ noneOwned .rx s := Iff.rfl
  rw [exec_evInTx_of_not_owned rsv hpp, hdata, ← howned]
  refine ⟨fun hn => ?_, fun ho => ?_⟩
  · rw [statusDone_of_noneOwned _ hn, finishUnit_ok]
  · rw [statusDone_of_owned _ ho, finishUnit_error]

/-- Settles O34: an event of either direction is `OnData`, which in `Idle` is `ProtocolError`. -/
theorem dataEventInIdleIsAProtocolError : Obligations.DataEventInIdleIsAProtocolError := by
  intro pp rsv s hg
  refine ⟨fun hpp => ?_, fun hpp => ?_, fun hpp => ?_, fun hpp => ?_⟩
  · rw [exec_evInTx_of_not_owned rsv hpp]
    exact (finishUnit_onData_idle hg).1
  · rw [exec_evInTx_of_not_owned rsv hpp]
    exact (finishUnit_onData_idle hg).2
  · rw [exec_evOutRx_of_not_owned rsv hpp]
    exact (finishUnit_onData_idle hg).1
  · rw [exec_evOutRx_of_not_owned rsv hpp]
    exact (finishUnit_onData_idle hg).2

/-- Settles O38: the engine's `More`, which arms the next chunk, is the fault in `Status`. -/
theorem unfinishedStatusTransferFaults : Obligations.UnfinishedStatusTransferFaults := by
  intro pp rsv s hg
  refine ⟨fun hpp hd ha ho => ?_, fun hpp hd hroom ha ho => ?_⟩
  · rw [exec_evInTx_of_not_owned rsv hpp, onData_status_of_more (d := .tx) hg (advanceTx_next hd ha ho), finishUnit_error]
  · rw [exec_evOutRx_of_not_owned rsv hpp, onData_status_of_more (d := .rx) hg (advanceRx_of_room _ _ hroom hd ha ho),
      finishUnit_error]

end Sys2Proof.Machine
end

section
/-! A SETUP discards the transfer in progress without its callback (43_control_fsm.md R232, R236, R244). -/

namespace Sys2Proof.Machine

open Sys2Proof

/-! ### The trace of the SETUP step -/

/-- The trace grows by records of which none is a callback's. -/
def EmitsNoCb (s t : State) : Prop := ∃ l : List TraceRec, t.out = s.out ++ l ∧ ∀ e ∈ l, e.isCb = false

theorem EmitsNoCb.of_out_eq {s t : State} (h : t.out = s.out) : EmitsNoCb s t := ⟨[], by simp [h], by simp⟩

theorem Handled.emitsNoCb {s t : State} {o : ReqOutcome} (h : Handled s t o) : EmitsNoCb s t := by
  obtain ⟨q, hq, ⟨rfl, -⟩ | ⟨-, ⟨_, _, _, _, _, -, rfl⟩ | ⟨_, _, _, _, -, rfl⟩⟩⟩ := h <;> exact hq.out

/-- A protocol error adds its `Stall` record. -/
theorem EmitsNoCb.protocolErrorState {s t : State} (h : EmitsNoCb s t) : EmitsNoCb s (protocolErrorState t) := by
  obtain ⟨l, hl, hcb⟩ := h
  refine ⟨l ++ [.stall], ?_, ?_⟩
  · show t.out ++ [TraceRec.stall] = _
    rw [hl, List.append_assoc]
  · simpa [TraceRec.isCb, or_imp, forall_and] using hcb

theorem runRequest_emitsNoCb {r : ControlReq} {s t : State} {o : ReqOutcome} (h : runRequest handle r s = .ok (t, o)) :
    EmitsNoCb s t := by
  obtain ⟨u, hu, hcase⟩ := runRequest_ok h
  have hout : EmitsNoCb s u := hu.emitsNoCb
  obtain ⟨-, -, -, rfl⟩ | ⟨-, -, -, rfl⟩ | ⟨-, rfl⟩ | ⟨-, -, rfl⟩ := hcase
  · exact hout
  · exact hout
  · exact hout
  · exact hout.protocolErrorState

/-! ### The callbacks after the SETUP step under the default `ClassHandler` (43_control_fsm.md R232, 44_std_requests.md R290) -/

/-- Neither pipe holds a callback. -/
def NoCallback (s : State) : Prop := s.rx.callback = none ∧ s.tx.callback = none

/-- An answer of a handler that leaves both pipes without a callback. -/
def AnswersNoCallback (x : Res (State × ReqOutcome)) : Prop := ∀ t o, x = .ok (t, o) → NoCallback t

section Handlers

variable {r : ControlReq} {s : State}

theorem answersNoCallback_ok {o : ReqOutcome} (hs : NoCallback s) : AnswersNoCallback (.ok (s, o)) := by
  intro t o' h
  cases h
  exact hs

theorem answersNoCallback_sendReply {bytes : List Byte} (hlen : bytes.length ≤ 2) (hs : NoCallback s) :
    AnswersNoCallback (sendReply r bytes s) := by
  intro t o h
  obtain ⟨q, hq, -, rfl, -⟩ := sendReply_ok h hlen
  exact ⟨(congrArg Pipe.callback hq.rx).trans hs.1, rfl⟩

theorem answersNoCallback_getDescriptor (hs : NoCallback s) : AnswersNoCallback (getDescriptor r s) := by
  intro t o h
  unfold getDescriptor at h
  split at h
  · cases h
    exact hs
  · split at h
    · cases h
    · next hsend =>
      cases h
      obtain ⟨-, rfl, -⟩ := apiSend_ok hsend
      exact ⟨hs.1, rfl⟩

/-- The default `ClassHandler` only rejects. -/
theorem answersNoCallback_classHandler (hclass : s.params.classTable = []) (hs : NoCallback s) :
    AnswersNoCallback (classHandler r s) := by
  simp only [classHandler, hclass, lookupClass]
  exact answersNoCallback_ok hs

/-- No standard handler gives its transfer a callback, and the other rows reject. -/
theorem answersNoCallback_handle (hclass : s.params.classTable = []) (hs : NoCallback s) :
    AnswersNoCallback (handle r s) := by
  unfold handle
  split_ifs
  · exact answersNoCallback_sendReply (by simp) hs
  · exact answersNoCallback_ok hs
  · exact answersNoCallback_ok hs
  · exact answersNoCallback_ok hs
  · exact answersNoCallback_getDescriptor hs
  · exact answersNoCallback_sendReply (by simp) hs
  · exact answersNoCallback_ok hs
  · exact answersNoCallback_sendReply (by simp) hs
  · exact answersNoCallback_ok hs
  · exact answersNoCallback_ok hs
  · exact answersNoCallback_classHandler hclass hs
  · exact answersNoCallback_ok hs

end Handlers

/-- What follows the handler arms only transfers without a callback. -/
theorem continueRequest_noCallback {r : ControlReq} {o : ReqOutcome} {s t : State} (hs : NoCallback s)
    (h : continueRequest r o s = .ok t) : NoCallback t := by
  obtain ⟨hrx, htx⟩ := hs
  cases o with
  | noData =>
    rw [continueRequest] at h
    generalize oppositeDir r.dir = d at h
    cases d with
    | tx =>
      obtain ⟨-, rfl⟩ := enterStatus_tx_ok h
      exact ⟨hrx, rfl⟩
    | rx =>
      obtain ⟨-, rfl⟩ := enterStatus_rx_ok h
      exact ⟨rfl, htx⟩
  | dataQueued =>
    cases h
    exact ⟨hrx, htx⟩
  | error =>
    obtain ⟨-, rfl⟩ := protocolError_ok h
    exact ⟨rfl, htx⟩

/-- The cancellation drops both callbacks before the handler runs (43_control_fsm.md R232). -/
theorem runRequest_noCallback {r : ControlReq} {s t : State} {o : ReqOutcome} (hclass : s.params.classTable = [])
    (h : runRequest handle r s = .ok (t, o)) : NoCallback t := by
  rw [runRequest, openRequest_eq] at h
  split at h
  · cases h
  · next u o' hu =>
    split at h
    · cases h
    · next v hv =>
      cases h
      have hopen : NoCallback (requestState r s) := ⟨rfl, rfl⟩
      exact continueRequest_noCallback (answersNoCallback_handle (s := requestState r s) hclass hopen u _ hu) hv

/-! ### What a SETUP step can end in -/

/-- The ends of a SETUP step: the mark, no step, or the request of the landed packet run (43_control_fsm.md R236,
46_transaction_completion.md R341). Before the request runs, the trace and the arguments are as they were. -/
inductive SetupRan (s : State) : State → Prop where
  | fails (m : BadMark) : SetupRan s (marked m s)
  | noStep : SetupRan s (returned .noStep s)
  | ran (u t : State) (r : ControlReq) (o : ReqOutcome) (v : Ret) : u.out = s.out → u.params = s.params →
      runRequest handle r u = .ok (t, o) → SetupRan s (returned v t)

/-- A SETUP event ends in the mark, or in what `OnSetup` answers. -/
theorem setupRan_finishUnit {i : Fin 64} {s u t : State} {x : Res State} (hout : u.out = s.out) (hparams : u.params = s.params)
    (hx : ∀ w, x = .ok w → onSetup i u = .ok w) (h : finishUnit s x = .next t) : SetupRan s t := by
  cases x with
  | error m =>
    rw [finishUnit_error] at h
    cases h
    exact .fails m
  | ok w =>
    rw [finishUnit_ok] at h
    cases h
    obtain ⟨b, o, -, hrun⟩ := onSetup_ok (hx w rfl)
    exact .ran u w _ o .nothing hout hparams hrun

theorem onSetup_of_onEvent {pp : Slot} {rsv : BitVec 2} {s t : State}
    (h : onEvent (statWord 0 .rx pp rsv) tokSetup s = .ok t) : onSetup (bd0 .rx pp) s = .ok t := by
  rw [onEvent_setup] at h
  split at h
  · cases h
  · exact h

/-- The SETUP packet's completion delivers its event to `OnSetup` where the packet has landed (46_transaction_completion.md R341). -/
theorem completeSetup_ok {x : Slot} {b : SetupData} {s t : State} (h : completeSetup x b s = .ok t) :
    onSetup (bd0 .rx x) (setupLanded x b s) = .ok t := by
  unfold completeSetup at h
  dsimp only at h
  split at h
  · cases h
  · next u hu =>
    obtain ⟨-, rfl⟩ := (memWrite_ok_iff _ _ _ _).1 hu
    exact onSetup_of_onEvent (rsv := 0) h

theorem setupRan_envSetup {pp : Option Slot} {b : SetupData} {s t : State} (h : exec (.envSetup pp b) s = .next t) :
    SetupRan s t := by
  have hexec : exec (.envSetup pp b) s = execEnvSetup pp b s := rfl
  rw [hexec, execEnvSetup] at h
  split at h
  · exact setupRan_finishUnit (u := setupLanded (chooseSlot .rx pp s) b s) rfl rfl (fun _ => completeSetup_ok) h
  · cases h
    exact .noStep

theorem setupRan_evSetupRx {pp : Slot} {rsv : BitVec 2} {s t : State} (h : exec (.evSetupRx pp rsv) s = .next t) :
    SetupRan s t :=
  setupRan_finishUnit (u := s) rfl rfl (fun _ => onSetup_of_onEvent) h

theorem setupRan_row {i : Instr} {r : ControlReq} {s t : State} (hr : i.req? = some r) (h : exec i s = .next t) :
    SetupRan s t := by
  rw [exec_row s hr, requestStep] at h
  cases hrun : runRequest handle r s with
  | error m =>
    rw [hrun, Except.map, finish_error] at h
    cases h
    exact .fails m
  | ok p =>
    rw [hrun, Except.map, finish_ok] at h
    cases h
    exact .ran s p.1 r p.2 _ rfl rfl hrun

/-- Settles O54: the SETUP step emits no callback and drops both before its handler runs; a mark or no step emits nothing. -/
theorem setupEmitsNoCallback : Obligations.SetupEmitsNoCallback := by
  intro i s t hi h
  have hran : SetupRan s t := by
    obtain hr | ⟨pp, rsv, rfl⟩ | ⟨pp, b, rfl⟩ := hi
    · obtain ⟨r, hr⟩ := Option.isSome_iff_exists.1 hr
      exact setupRan_row hr h
    · exact setupRan_evSetupRx h
    · exact setupRan_envSetup h
  cases hran with
  | fails m => exact ⟨EmitsNoCb.of_out_eq rfl, fun _ hbad => by cases hbad⟩
  | noStep => exact ⟨EmitsNoCb.of_out_eq rfl, fun _ _ hret => absurd rfl hret⟩
  | ran u t r o v hout hparams hrun =>
    have hemits := runRequest_emitsNoCb hrun
    rw [EmitsNoCb, hout] at hemits
    exact ⟨hemits, fun _ _ _ hclass => runRequest_noCallback (t := t) (hparams ▸ hclass) hrun⟩

end Sys2Proof.Machine
end

section
/-! Request rows by what their handler answers: a reply queued, the status stage, or the stall (44_std_requests.md R270 to R292;
43_control_fsm.md R236, R238, R240). -/

namespace Sys2Proof.Machine

open Sys2Proof

/-! ### What follows the handler's outcome -/

section Outcome

variable {h : ControlReq → State → Res (State × ReqOutcome)} {r : ControlReq} {s t : State}

/-- A handler that leaves the directory alone leaves the RX descriptors as they were before the SETUP. -/
theorem noneOwned_rx_iff_of_bd_eq (hbd : t.bd = (requestState r s).bd) : noneOwned .rx t ↔ noneOwned .rx s :=
  Iff.trans ⟨noneOwned_congr hbd, noneOwned_congr hbd.symm⟩ (requestState_noneOwned_rx_iff r s)

/-- A handler that accepts and arms nothing is followed by the status stage, whose OUT wants no RX descriptor owned
(43_control_fsm.md R238, R239). -/
theorem requestStep_noData_cases (hh : h r (requestState r s) = .ok (t, .noData)) (hbd : t.bd = (requestState r s).bd) :
    ((r.dir = 0 ∨ noneOwned .rx s) → requestStep h r s = .next (returned (.outcome .noData) (noDataState r t)))
      ∧ (r.dir ≠ 0 → ¬ noneOwned .rx s → requestStep h r s = .next (marked (.fault .r201) s)) := by
  rw [← noneOwned_rx_iff_of_bd_eq hbd]
  refine ⟨fun hcan => requestStep_of_noData hh ?_, requestStep_of_noData_owned hh⟩
  split
  · exact noneOwned_congr hbd.symm (requestState_noneOwned_tx r s)
  · next hdir => exact hcan.resolve_left hdir

/-- A handler that rejects is followed by the stall and the re-arm, which wants no RX descriptor owned
(43_control_fsm.md R240). -/
theorem requestStep_error_cases (hh : h r (requestState r s) = .ok (t, .error)) (hbd : t.bd = (requestState r s).bd) :
    (noneOwned .rx s → requestStep h r s = .next (returned (.outcome .error) (protocolErrorState t)))
      ∧ (¬ noneOwned .rx s → requestStep h r s = .next (marked (.fault .r201) s)) := by
  rw [← noneOwned_rx_iff_of_bd_eq hbd]
  exact requestStep_of_error hh

end Outcome

/-! ### Replies (44_std_requests.md R271, R277, R278, R280) -/

section Reply

variable {h : ControlReq → State → Res (State × ReqOutcome)} {r : ControlReq} {bytes : List Byte} {s : State}

theorem memWrite_of_le {a : Addr} (hfit : a.toNat + bytes.length ≤ memSize) :
    memWrite a bytes s = .ok (s.setMem (memPutList s.mem a.toNat bytes)) := if_pos hfit

/-- `SendReply` with no TX descriptor owned queues the bytes it stores. -/
theorem sendReply_of_noneOwned (hfit : (s.scratch s.tx.pingpong).toNat + bytes.length ≤ memSize) (hn : noneOwned .tx s) :
    sendReply r bytes s = .ok (armedTx (s.scratch s.tx.pingpong) (BitVec.ofNat 32 bytes.length) (r.length.setWidth 32) none 0
      { s with mem := memPutList s.mem (s.scratch s.tx.pingpong).toNat bytes }, .dataQueued) := by
  have hn' : noneOwned .tx (s.setMem (memPutList s.mem (s.scratch s.tx.pingpong).toNat bytes)) := hn
  simp only [sendReply, State.pipe_tx, memWrite_of_le hfit, apiSend, beginTx_of_noneOwned _ _ _ _ _ _ hn']
  rfl

theorem sendReply_past_top (htop : memSize < (s.scratch s.tx.pingpong).toNat + bytes.length) :
    sendReply r bytes s = .error (.fault .r71) := by
  simp only [sendReply, State.pipe_tx, memWrite_past_top s htop]

/-- The SETUP's cancellation leaves the slot and the scratch buffers alone. -/
theorem requestState_scratch (r : ControlReq) (s : State) :
    (requestState r s).scratch (requestState r s).tx.pingpong = s.scratch s.tx.pingpong := by
  show (requestState r s).scratch s.tx.pingpong = _
  cases s.tx.pingpong <;> rfl

/-- A row whose handler is a reply: after the cancellation no TX descriptor is owned (43_control_fsm.md R232). -/
theorem requestStep_of_reply (hh : h r (requestState r s) = sendReply r bytes (requestState r s))
    (hfit : (s.scratch s.tx.pingpong).toNat + bytes.length ≤ memSize) :
    requestStep h r s = .next (returned (.outcome .dataQueued) (replyState r bytes (requestState r s))) := by
  rw [← requestState_scratch r s] at hfit
  exact requestStep_of_dataQueued (hh.trans (sendReply_of_noneOwned hfit (requestState_noneOwned_tx r s)))

theorem requestStep_of_reply_past_top (hh : h r (requestState r s) = sendReply r bytes (requestState r s))
    (htop : memSize < (s.scratch s.tx.pingpong).toNat + bytes.length) :
    requestStep h r s = .next (marked (.fault .r71) s) := by
  rw [← requestState_scratch r s] at htop
  exact requestStep_of_mark (hh.trans (sendReply_past_top htop))

end Reply

theorem exec_getConfiguration (f : ReqFields) (s : State) :
    exec (.getConfiguration f) s = .next (returned (.outcome .dataQueued)
      (replyState (f.toReq 0 0x08) [s.devConfig] (requestState (f.toReq 0 0x08) s))) :=
  requestStep_of_reply (h := getConfiguration) rfl (s.scratch s.tx.pingpong).isLt

/-- Settles O17: each handler is a reply; one byte has room at every address. -/
theorem replyRequestsQueueTheirBytes : Obligations.ReplyRequestsQueueTheirBytes := by
  intro f s
  exact ⟨requestStep_of_reply (h := getStatus) rfl, requestStep_of_reply_past_top (h := getStatus) rfl,
    exec_getConfiguration f s, requestStep_of_reply (h := getInterface) rfl (s.scratch s.tx.pingpong).isLt⟩

/-! ### Requests with no data stage (44_std_requests.md R272 to R274, R279) -/

/-- Settles O18: both handlers accept in the state the cancellation leaves. -/
theorem featureRequestsOnlyRunTheStatusStage : Obligations.FeatureRequestsOnlyRunTheStatusStage := by
  intro f s
  obtain ⟨hclear, hclearOwned⟩ := requestStep_noData_cases (h := clearFeature) (r := f.toReq 0 0x01) (s := s) rfl rfl
  obtain ⟨hset, hsetOwned⟩ := requestStep_noData_cases (h := setFeature) (r := f.toReq 0 0x03) (s := s) rfl rfl
  exact ⟨fun hcan => ⟨hclear hcan, hset hcan⟩, fun hdir ho => ⟨hclearOwned hdir ho, hsetOwned hdir ho⟩⟩

theorem reqConfig_eq_setWidth (r : ControlReq) : reqConfig r = r.value.setWidth 8 :=
  (BitVec.setWidth_eq_extractLsb' (by decide)).symm

theorem setConfiguration_eq (r : ControlReq) (s : State) :
    setConfiguration r s = .ok ({ s with devConfig := r.value.setWidth 8, devState := .configured }, .noData) := by
  rw [setConfiguration, reqConfig_eq_setWidth]
  rfl

/-- Settles O19: the handler stores two fields of `DEV`, and the status stage follows. -/
theorem setAddressStoresAndDefers : Obligations.SetAddressStoresAndDefers := by
  intro f s r
  have hrow : exec (.setAddress f) s = requestStep handle r s := exec_row s rfl
  rw [hrow]
  exact requestStep_noData_cases (handle_of_setAddress (r := r) rfl rfl _) rfl

/-- Settles O20: the handler stores two fields of `DEV`, for every value, and the status stage follows. -/
theorem setConfigurationStoresAndConfigures : Obligations.SetConfigurationStoresAndConfigures :=
  fun f s => requestStep_noData_cases (setConfiguration_eq (f.toReq 0 0x09) (requestState (f.toReq 0 0x09) s)) rfl

/-! ### GET_DESCRIPTOR (44_std_requests.md R275, R276) -/

section GetDescriptor

variable {r : ControlReq} {s : State}

theorem getDescriptor_of_find_some {e : DescEntry}
    (he : (s.params.lookup.find? fun e => e.value == r.value && e.index == r.index) = some e) (hn : noneOwned .tx s) :
    getDescriptor r s = .ok (armedTx e.addr e.len (r.length.setWidth 32) none 0 s, .dataQueued) := by
  simp only [getDescriptor, lookupDesc_eq_find, he, Option.map_some, apiSend, beginTx_of_noneOwned _ _ _ _ _ _ hn]
  rfl

theorem getDescriptor_of_find_none
    (he : (s.params.lookup.find? fun e => e.value == r.value && e.index == r.index) = none) :
    getDescriptor r s = .ok (s, .error) := by
  simp only [getDescriptor, lookupDesc_eq_find, he, Option.map_none]

end GetDescriptor

/-- Settles O21: an entry is sent in place, a missing one is a rejection. -/
theorem getDescriptorSendsOrRejects : Obligations.GetDescriptorSendsOrRejects := by
  intro f s
  have hreject (hnone) := requestStep_error_cases (h := getDescriptor) (r := f.toReq 0 0x06) (s := s)
    (getDescriptor_of_find_none hnone) rfl
  exact ⟨fun e he => requestStep_of_dataQueued (getDescriptor_of_find_some he (requestState_noneOwned_tx _ s)),
    fun hnone => (hreject hnone).1, fun hnone => (hreject hnone).2⟩

/-! ### Rejected requests (44_std_requests.md R281, R282, R291) -/

/-- The ten rejecting rows have one handler between them. -/
theorem exec_of_isRejectRow {i : Instr} {r : ControlReq} (s : State) (hi : isRejectRow i = true) (hr : i.req? = some r) :
    exec i s = requestStep (fun _ t => .ok (t, .error)) r s := by
  cases i
  case setInterface | stdUnrecognised02 | stdUnrecognised04 | stdUnrecognised07 | stdUnrecognised0C0F
      | stdUnrecognised101F | stdUnrecognised203F | stdUnrecognised407F | stdUnrecognised80FF | reservedTypeRequest =>
    cases hr
    rfl
  all_goals cases hi

/-- Settles O22: each of the rows rejects in the state the cancellation leaves. -/
theorem rejectedRequestsStallAndRearm : Obligations.RejectedRequestsStallAndRearm := by
  intro i r s hi hr
  rw [exec_of_isRejectRow s hi hr]
  exact requestStep_error_cases rfl rfl

end Sys2Proof.Machine
end

section
/-! Class and vendor requests: the default rejection, and a supplied handler by its calls (44_std_requests.md R290; 45_api.md R310,
R314, R320, R326, R327; log 12). -/

namespace Sys2Proof.Machine

open Sys2Proof

/-! ### The transfer of a supplied handler -/

section Transfer

variable {s : State}

theorem callTransfer_send (buf : Addr) (len req : Len) (cb : Option CallbackId) (ctx : Addr) (hn : noneOwned .tx s) :
    callTransfer (some (.send buf len req cb ctx)) s = .ok (armedTx buf len req cb ctx s, true) := by
  simp only [callTransfer, apiSend, beginTx_of_noneOwned _ _ _ _ _ _ hn]

theorem callTransfer_receive (buf : Addr) (max : Len) (cb : Option CallbackId) (ctx : Addr) (hn : noneOwned .rx s) :
    callTransfer (some (.receive buf max cb ctx)) s = .ok (armedRx buf max cb ctx s, true) := by
  simp only [callTransfer, apiReceive, beginRx_of_noneOwned _ _ _ _ _ hn]

theorem callTransfer_receive_of_owned (buf : Addr) (max : Len) (cb : Option CallbackId) (ctx : Addr) (ho : ¬ noneOwned .rx s) :
    callTransfer (some (.receive buf max cb ctx)) s = .error (.fault .r201) := by
  simp only [callTransfer, apiReceive, beginRx_of_owned _ _ _ _ _ ho]

theorem callTransfer_sendSmall {src : Addr} {len : Len} (hlen : len.toNat ≤ s.params.bufSize.toNat)
    (hsrc : src.toNat + len.toNat ≤ memSize) (hdst : (s.scratch s.tx.pingpong).toNat + len.toNat ≤ memSize)
    (hn : noneOwned .tx s) :
    callTransfer (some (.sendSmall src len)) s = .ok (armedTx (s.scratch s.tx.pingpong) len (smallRequested len s) none 0
      { s with mem := memPutList s.mem (s.scratch s.tx.pingpong).toNat (memGetList s.mem src.toNat len.toNat) }, true) := by
  simp only [callTransfer, apiSendSmall_of_noneOwned hlen hsrc hdst hn, Option.isSome_some]

theorem callTransfer_sendSmall_past_top {src : Addr} {len : Len} (hlen : len.toNat ≤ s.params.bufSize.toNat)
    (htop : memSize < src.toNat + len.toNat ∨ memSize < (s.scratch s.tx.pingpong).toNat + len.toNat) :
    callTransfer (some (.sendSmall src len)) s = .error (.fault .r71) := by
  simp only [callTransfer, apiSendSmall_past_top hlen htop]

/-- The capacity error of `send_small` writes no state (45_api.md R314). -/
theorem callTransfer_of_queuesNone {e : ClassEntry} (h : queuesNone e s) : callTransfer e.transfer s = .ok (s, false) := by
  obtain hnone | ⟨src, len, hsmall, hcap⟩ := h
  · rw [hnone, callTransfer]
  · simp only [hsmall, callTransfer, apiSendSmall_of_capacity src hcap, Option.isSome_none]

end Transfer

/-! ### `ClassHandler` by what its calls answer (44_std_requests.md R290) -/

theorem classHandler_of_find_none {r : ControlReq} {s : State} (hnone : s.params.classTable.find? (fun x => x.req == r) = none) :
    classHandler r s = .ok (s, .error) := by
  simp only [classHandler, lookupClass_eq_find, hnone]

section Entry

variable {r : ControlReq} {e : ClassEntry} {s t : State} {m : BadMark}
variable (hentry : s.params.classTable.find? (fun x => x.req == r) = some e)

include hentry

theorem classHandler_of_stall_other (hother : ∃ ep ∈ e.stalls, ep ≠ 0) :
    classHandler r s = .error (.refused .endpointNot0) := by
  simp only [classHandler, lookupClass_eq_find, hentry, callStalls_of_other s hother]

variable (hzero : ∀ ep ∈ e.stalls, ep = 0)

include hzero

theorem classHandler_of_transfer_error (h : callTransfer e.transfer (stallsCalled e.stalls s) = .error m) :
    classHandler r s = .error m := by
  simp only [classHandler, lookupClass_eq_find, hentry, callStalls_of_zero s hzero, h]

/-- `DataQueued` exactly where a transfer was queued; else the entry's own answer. -/
theorem classHandler_of_transfer_ok {queued : Bool}
    (h : callTransfer e.transfer (stallsCalled e.stalls s) = .ok (t, queued)) :
    classHandler r s = .ok (t, if queued then .dataQueued else if e.accept then .noData else .error) := by
  simp only [classHandler, lookupClass_eq_find, hentry, callStalls_of_zero s hzero, h]

end Entry

/-! ### The class and vendor rows -/

/-- Both rows are handed to `ClassHandler`. -/
theorem exec_of_isClassRow {i : Instr} {r : ControlReq} (s : State) (hi : isClassRow i = true) (hr : i.req? = some r) :
    exec i s = requestStep classHandler r s := by
  cases i
  case classRequest | vendorRequest =>
    cases hr
    rfl
  all_goals cases hi

/-- Settles O23: without an entry both rows reject. -/
theorem classRequestsRejectedByDefault : Obligations.ClassRequestsRejectedByDefault := by
  intro i r s hi hr hnone
  rw [exec_of_isClassRow s hi hr]
  exact requestStep_error_cases (classHandler_of_find_none hnone) rfl

section EntryStep

variable {r : ControlReq} {e : ClassEntry} {s : State}
variable (hentry : s.params.classTable.find? (fun x => x.req == r) = some e) (hzero : ∀ ep ∈ e.stalls, ep = 0)

include hentry hzero

theorem requestStep_classHandler_of_error {m : BadMark}
    (h : callTransfer e.transfer (stallsCalled e.stalls (requestState r s)) = .error m) :
    requestStep classHandler r s = .next (marked m s) :=
  requestStep_of_mark (classHandler_of_transfer_error (s := requestState r s) hentry hzero h)

theorem requestStep_classHandler_of_queued {t : State}
    (h : callTransfer e.transfer (stallsCalled e.stalls (requestState r s)) = .ok (t, true)) :
    requestStep classHandler r s = .next (returned (.outcome .dataQueued) { t with stage := .data }) :=
  requestStep_of_dataQueued (classHandler_of_transfer_ok (s := requestState r s) hentry hzero h)

/-- A receive of the handler, armed or faulting (42_rx_engine.md R201). -/
theorem requestStep_classHandler_receive {buf : Addr} {max : Len} {cb : Option CallbackId} {ctx : Addr}
    (htr : e.transfer = some (.receive buf max cb ctx)) :
    (noneOwned .rx s → requestStep classHandler r s = .next (returned (.outcome .dataQueued)
        { armedRx buf max cb ctx (stallsCalled e.stalls (requestState r s)) with stage := .data }))
      ∧ (¬ noneOwned .rx s → requestStep classHandler r s = .next (marked (.fault .r201) s)) := by
  rw [← requestState_noneOwned_rx_iff r s]
  refine ⟨fun hn => requestStep_classHandler_of_queued hentry hzero ?_,
    fun ho => requestStep_classHandler_of_error hentry hzero ?_⟩
  · rw [htr]
    exact callTransfer_receive _ _ _ _ hn
  · rw [htr]
    exact callTransfer_receive_of_owned _ _ _ _ ho

/-- A send of the handler: the cancellation has left no TX descriptor owned (43_control_fsm.md R232). -/
theorem requestStep_classHandler_send {buf : Addr} {len req : Len} {cb : Option CallbackId} {ctx : Addr}
    (htr : e.transfer = some (.send buf len req cb ctx)) :
    requestStep classHandler r s = .next (returned (.outcome .dataQueued)
      { armedTx buf len req cb ctx (stallsCalled e.stalls (requestState r s)) with stage := .data }) := by
  refine requestStep_classHandler_of_queued hentry hzero ?_
  rw [htr]
  exact callTransfer_send _ _ _ _ _ (requestState_noneOwned_tx r s)

/-- A `send_small` of the handler within the capacity, copied or faulting (45_api.md R314). -/
theorem requestStep_classHandler_sendSmall {src : Addr} {len : Len} (htr : e.transfer = some (.sendSmall src len))
    (hlen : len.toNat ≤ s.params.bufSize.toNat) :
    let a := s.scratch s.tx.pingpong
    let m := memPutList s.mem a.toNat (memGetList s.mem src.toNat len.toNat)
    (src.toNat + len.toNat ≤ memSize → a.toNat + len.toNat ≤ memSize →
        requestStep classHandler r s = .next (returned (.outcome .dataQueued)
          { armedTx a len (r.length.setWidth 32) none 0
              { stallsCalled e.stalls (requestState r s) with mem := m } with stage := .data }))
      ∧ ((memSize < src.toNat + len.toNat ∨ memSize < a.toNat + len.toNat) →
        requestStep classHandler r s = .next (marked (.fault .r71) s)) := by
  rw [← requestState_scratch r s]
  refine ⟨fun hsrc hdst => requestStep_classHandler_of_queued hentry hzero ?_,
    fun htop => requestStep_classHandler_of_error hentry hzero ?_⟩
  · rw [htr]
    exact callTransfer_sendSmall hlen hsrc hdst (requestState_noneOwned_tx r s)
  · rw [htr]
    exact callTransfer_sendSmall_past_top hlen htop

/-- With no transfer queued the entry's own answer is the outcome. -/
theorem classHandler_of_queuesNone (hnone : queuesNone e s) :
    classHandler r (requestState r s)
      = .ok (stallsCalled e.stalls (requestState r s), if e.accept then .noData else .error) :=
  classHandler_of_transfer_ok (s := requestState r s) hentry hzero
    (callTransfer_of_queuesNone (s := stallsCalled e.stalls (requestState r s)) hnone)

end EntryStep

/-- Settles O24: the entry's stalls decide between the refusal and the transfer, and the transfer's answer is the outcome. -/
theorem suppliedClassHandlerRuns : Obligations.SuppliedClassHandlerRuns := by
  intro i r e s hi hr hentry u
  rw [exec_of_isClassRow s hi hr]
  refine ⟨fun hother => requestStep_of_mark (classHandler_of_stall_other (s := requestState r s) hentry hother),
    fun hzero => ⟨fun _ _ _ _ => requestStep_classHandler_receive hentry hzero,
      fun _ _ _ _ _ => requestStep_classHandler_send hentry hzero,
      fun _ _ => requestStep_classHandler_sendSmall hentry hzero, fun hnone hacc => ?_, fun hnone hrej => ?_⟩⟩
  · have hh := classHandler_of_queuesNone hentry hzero hnone
    rw [hacc] at hh
    exact requestStep_noData_cases hh rfl
  · have hh := classHandler_of_queuesNone hentry hzero hnone
    rw [hrej] at hh
    exact requestStep_error_cases hh rfl

end Sys2Proof.Machine
end

section
/-! Where the replies and the copies of `send_small` land in memory (44_std_requests.md R277, R292; 45_api.md R314;
46_transaction_completion.md R341, R343). -/

namespace Sys2Proof.Machine

open Sys2Proof

/-! ### The configuration read back (44_std_requests.md R278, R279, R292) -/

theorem noDataState_devConfig (r : ControlReq) (s : State) : (noDataState r s).devConfig = s.devConfig := by
  unfold noDataState
  split <;> rfl

/-- SET_CONFIGURATION either stores its value or is the mark alone. -/
theorem devConfig_of_exec_setConfiguration {f : ReqFields} {s t : State} (h : exec (.setConfiguration f) s = .next t)
    (hbad : t.bad = none) : t.devConfig = f.value.setWidth 8 := by
  obtain ⟨hdone, hfault⟩ := setConfigurationStoresAndConfigures f s
  by_cases hcan : f.dir = 0 ∨ noneOwned .rx s
  · rw [hdone hcan] at h
    cases h
    exact noDataState_devConfig _ _
  · obtain ⟨hdir, ho⟩ := not_or.1 hcan
    rw [hfault hdir ho] at h
    cases h
    cases hbad

/-- The descriptor a reply arms: the one of the pipe's slot, at the scratch buffer. -/
theorem replyState_bdAt (r : ControlReq) (bytes : List Byte) (s : State) :
    (replyState r bytes s).bdAt (bd0 .tx s.tx.pingpong) = armedBd (s.scratch s.tx.pingpong)
      (min (min (BitVec.ofNat 32 bytes.length).toNat (r.length.setWidth 32).toNat) s.tx.epMaxsize.toNat) s.tx.data01
      (s.bdAt (bd0 .tx s.tx.pingpong)) :=
  (armedTx_bdAt _ _ _ none 0 { s with mem := _ } _).trans (if_pos rfl)

/-- A reply of one byte to a host that asks for at least one: the armed descriptor holds it. -/
theorem replyState_single {r : ControlReq} {s : State} (b : Byte) (hlen : 1 ≤ r.length.toNat)
    (hmax : 1 ≤ s.tx.epMaxsize.toNat) (hwf : Memory.wf s.mem = true) :
    let t := replyState r [b] s
    let d := t.bdAt (bd0 .tx s.tx.pingpong)
    d.own = true ∧ d.bc = 1 ∧ memGet t.mem d.addr.toNat = b := by
  intro t d
  have hd : d = _ := replyState_bdAt r [b] s
  have hreq : (r.length.setWidth 32).toNat = r.length.toNat := BitVec.toNat_setWidth_of_le (by decide)
  have hone : min (min (BitVec.ofNat 32 [b].length).toNat (r.length.setWidth 32).toNat) s.tx.epMaxsize.toNat = 1 := by
    rw [hreq, List.length_singleton, show (BitVec.ofNat 32 1).toNat = 1 from rfl]
    omega
  rw [hd, hone]
  exact ⟨rfl, rfl, memGet_memPut_same s.mem _ b hwf⟩

/-- Settles O55: a mark of the first step would stay; without one the value is in `DEV.config`, which the reply holds. -/
theorem configurationRoundTrip : Obligations.ConfigurationRoundTrip := by
  intro f g s t u hinv _ hlen hset hget hbad
  have htbad : t.bad = none := by
    refine Option.eq_none_iff_forall_ne_some.2 fun m hm => ?_
    rw [(moves_of_exec hget).bad_eq_some hm] at hbad
    cases hbad
  have htinv : t.Inv := (moves_of_exec hset).inv hinv
  have hmax : 1 ≤ t.tx.epMaxsize.toNat := by
    obtain ⟨-, -, -, -, hmax⟩ := Params.wf_bounds htinv.paramsWf
    rw [htinv.txPipe.2]
    omega
  rw [exec_getConfiguration g t, devConfig_of_exec_setConfiguration hset htbad] at hget
  cases hget
  exact replyState_single (r := g.toReq 0 0x08) (s := requestState (g.toReq 0 0x08) t) _ hlen hmax htinv.memWf

/-! ### The bytes outside the next scratch buffer (10_state.md R40) -/

/-- An address outside `SCRATCH[PIPE[TX].pingpong]`. -/
def OutsideScratch (s : State) (c : Nat) : Prop :=
  c < (s.scratch s.tx.pingpong).toNat ∨ (s.scratch s.tx.pingpong).toNat + s.params.bufSize.toNat ≤ c

/-- A step's answer that changes no byte outside the next scratch buffer of the state it began in. -/
def StoresInScratch (s t : State) : Prop := ∀ c, OutsideScratch s c → memGet t.mem c = memGet s.mem c

theorem Quiet.storesInScratch {s q : State} (h : Quiet s q) (hbuf : s.params.bufSizeOk = true) : StoresInScratch s q := by
  simp only [Params.bufSizeOk, Bool.and_eq_true, decide_eq_true_eq] at hbuf
  exact h.mem (by omega)

/-- A handler stores only what its quiet change stores; arming stores nothing. -/
theorem Handled.storesInScratch {s t : State} {o : ReqOutcome} (h : Handled s t o) (hbuf : s.params.bufSizeOk = true) :
    StoresInScratch s t := by
  obtain ⟨q, hq, ⟨rfl, -⟩ | ⟨-, ⟨_, _, _, _, _, -, rfl⟩ | ⟨_, _, _, _, -, rfl⟩⟩⟩ := h
  all_goals exact hq.storesInScratch hbuf

/-- The SETUP step stores only what its handler stores: the cancellation moves neither memory nor the scratch buffer. -/
theorem runRequest_storesInScratch {r : ControlReq} {s t : State} {o : ReqOutcome} (h : runRequest handle r s = .ok (t, o))
    (hbuf : s.params.bufSizeOk = true) : StoresInScratch s t := by
  intro c hc
  obtain ⟨u, hu, hcase⟩ := runRequest_ok h
  have hc' : OutsideScratch (requestState r s) c := by
    rw [OutsideScratch, requestState_scratch]
    exact hc
  have hmem : memGet u.mem c = memGet s.mem c := hu.storesInScratch hbuf c hc'
  obtain ⟨-, -, -, rfl⟩ | ⟨-, -, -, rfl⟩ | ⟨-, rfl⟩ | ⟨-, -, rfl⟩ := hcase <;> exact hmem

theorem onSetup_storesInScratch {i : Fin 64} {s t : State} (h : onSetup i s = .ok t) (hbuf : s.params.bufSizeOk = true) :
    StoresInScratch s t := by
  obtain ⟨b, o, -, hrun⟩ := onSetup_ok h
  exact runRequest_storesInScratch hrun hbuf

theorem apiSendSmall_storesInScratch {src : Addr} {len : Len} {s t : State} {l : Option Len}
    (h : apiSendSmall src len s = .ok (t, l)) (hbuf : s.params.bufSizeOk = true) : StoresInScratch s t := by
  obtain ⟨rfl, -, -⟩ | ⟨q, hq, -, rfl, -⟩ := apiSendSmall_ok h
  · exact fun _ _ => rfl
  · exact hq.storesInScratch hbuf

/-! ### The storing steps -/

/-- A step that ends in a next state ends in the mark alone, or in the state its meaning answers. -/
theorem finish_map_cases {α : Type} {s u : State} {x : Res α} {f : α → State × Ret} (h : finish s (x.map f) = .next u) :
    (∃ m, u = marked m s) ∨ ∃ p, x = .ok p ∧ u = returned (f p).2 (f p).1 := by
  cases x with
  | error m =>
    rw [Except.map, finish_error] at h
    cases h
    exact .inl ⟨m, rfl⟩
  | ok p =>
    rw [Except.map, finish_ok] at h
    cases h
    exact .inr ⟨p, rfl, rfl⟩

section Step

variable {s t : State}

theorem exec_row_storesInScratch {i : Instr} {r : ControlReq} (hr : i.req? = some r) (h : exec i s = .next t)
    (hbuf : s.params.bufSizeOk = true) : StoresInScratch s t := by
  rw [exec_row s hr] at h
  obtain ⟨m, rfl⟩ | ⟨p, hrun, rfl⟩ := finish_map_cases h
  · exact fun _ _ => rfl
  · exact runRequest_storesInScratch (t := p.1) hrun hbuf

theorem exec_evSetupRx_storesInScratch {pp : Slot} {rsv : BitVec 2} (h : exec (.evSetupRx pp rsv) s = .next t)
    (hbuf : s.params.bufSizeOk = true) : StoresInScratch s t := by
  obtain ⟨m, rfl⟩ | ⟨u, hev, rfl⟩ := finish_map_cases h
  · exact fun _ _ => rfl
  · exact onSetup_storesInScratch (t := u) (onSetup_of_onEvent hev) hbuf

theorem exec_sendSmall_storesInScratch {src : Addr} {len : Len} (h : exec (.sendSmall src len) s = .next t)
    (hbuf : s.params.bufSizeOk = true) : StoresInScratch s t := by
  obtain ⟨m, rfl⟩ | ⟨p, hsmall, rfl⟩ := finish_map_cases h
  · exact fun _ _ => rfl
  · exact apiSendSmall_storesInScratch (t := p.1) hsmall hbuf

/-- The packet's 8 bytes land at the descriptor's address, and its request runs there (46_transaction_completion.md R341). -/
theorem exec_envSetup_memGet {pp : Slot} {b : SetupData} {c : Nat} (h : exec (.envSetup (some pp) b) s = .next t)
    (hbuf : s.params.bufSizeOk = true) (hscratch : OutsideScratch s c)
    (hpacket : c < (s.bdAt (bd0 .rx pp)).addr.toNat ∨ (s.bdAt (bd0 .rx pp)).addr.toNat + 8 ≤ c) :
    memGet t.mem c = memGet s.mem c := by
  have hexec : exec (.envSetup (some pp) b) s
      = if (s.bdAt (bd0 .rx pp)).own then finishUnit s (completeSetup pp b s) else noStep s := rfl
  rw [hexec] at h
  split at h
  · obtain ⟨m, rfl⟩ | ⟨u, hu, rfl⟩ := finish_map_cases h
    · rfl
    · have hrun : memGet u.mem c = memGet (setupLanded pp b s).mem c :=
        onSetup_storesInScratch (completeSetup_ok hu) hbuf c hscratch
      exact hrun.trans (memGet_memPutList_outside b.toList s.mem _ c hpacket)
  · cases h
    rfl

/-- The OUT packet's completion delivers its event to `OnData` where the bytes have landed (46_transaction_completion.md R343). -/
theorem completeOut_ok {x : Slot} {l : List Byte} (h : completeOut x l s = .ok t) :
    onData .rx (bd0 .rx x) (outLanded x l s) = .ok t := by
  unfold completeOut at h
  dsimp only at h
  split at h
  · cases h
  · next u hu =>
    obtain ⟨-, rfl⟩ := (memWrite_ok_iff _ _ _ _).1 hu
    have hev : onEvent (statWord 0 .rx x 0) tokOut (outLanded x l s) = .ok t := h
    rw [onEvent_out] at hev
    split at hev
    · cases hev
    · exact hev

theorem length_eq_of_canOut {x : Slot} {pid : Option Toggle} {n : Nat} {l : List Byte}
    (h : canOut x pid n l s = true) : l.length = n := by
  simp only [canOut, Bool.and_eq_true, beq_iff_eq] at h
  exact h.2

/-- The `n` bytes of the packet land at the descriptor's address, and `OnData` stores nothing (42_rx_engine.md R208). -/
theorem exec_envOut_memGet {pp : Slot} {pid : Option Toggle} {n : BitVec 16} {l : Option (List Byte)} {c : Nat}
    (h : exec (.envOut (some pp) pid n l) s = .next t)
    (hpacket : c < (s.bdAt (bd0 .rx pp)).addr.toNat ∨ (s.bdAt (bd0 .rx pp)).addr.toNat + n.toNat ≤ c) :
    memGet t.mem c = memGet s.mem c := by
  have hexec : exec (.envOut (some pp) pid n l) s
      = if canOut pp pid n.toNat (outBytes n.toNat l s) s then
          finishUnit s (completeOut pp (outBytes n.toNat l s) (s.takeFresh (outFresh n.toNat l)))
        else noStep s := rfl
  rw [hexec] at h
  split at h
  · next hcan =>
    rw [← length_eq_of_canOut hcan] at hpacket
    obtain ⟨m, rfl⟩ | ⟨u, hu, rfl⟩ := finish_map_cases h
    · rfl
    · have hdata : u.mem = _ := onData_mem (completeOut_ok hu)
      show memGet u.mem c = _
      rw [hdata]
      exact memGet_memPutList_outside (outBytes n.toNat l s) s.mem _ c hpacket
  · cases h
    rfl

end Step

/-- Settles O57: a handler stores in the next scratch buffer only, and a completion where its packet lands. -/
theorem storesStayInTheirBuffers : Obligations.StoresStayInTheirBuffers := by
  intro s t c hbuf a outside
  refine ⟨fun i hi h hout => ?_, fun pp b h hout => exec_envSetup_memGet h hbuf hout, fun pp pid n l => exec_envOut_memGet⟩
  obtain hrow | ⟨pp, rsv, rfl⟩ | ⟨src, len, rfl⟩ := hi
  · obtain ⟨r, hr⟩ := Option.isSome_iff_exists.1 hrow
    exact exec_row_storesInScratch hr h hbuf c hout
  · exact exec_evSetupRx_storesInScratch h hbuf c hout
  · exact exec_sendSmall_storesInScratch h hbuf c hout

end Sys2Proof.Machine
end

section
/-! The API's calls as steps of their own: `send_small`, `stall` and `query` (45_api.md R314, R326, R329). -/

namespace Sys2Proof.Machine

open Sys2Proof

/-! ### `send_small` by what it answers (45_api.md R314) -/

section SendSmall

variable {src : Addr} {len : Len} {s : State}

/-- The copy leaves the descriptors alone, so a TX transfer in flight is found by `begin_tx` (41_tx_engine.md R171). -/
theorem apiSendSmall_of_owned (hlen : len.toNat ≤ s.params.bufSize.toNat) (hsrc : src.toNat + len.toNat ≤ memSize)
    (hdst : (s.scratch s.tx.pingpong).toNat + len.toNat ≤ memSize) (ho : ¬ noneOwned .tx s) :
    apiSendSmall src len s = .error (.fault .r171) := by
  have hcopied : ¬ noneOwned .tx (s.setMem
      (memPutList s.mem (s.scratch s.tx.pingpong).toNat (memGetList s.mem src.toNat len.toNat))) := ho
  have hbytes : (memGetList s.mem src.toNat len.toNat).length = len.toNat := by simp
  rw [apiSendSmall, if_neg (Nat.not_lt.2 hlen)]
  simp only [memRead, memWrite, State.pipe, hsrc, hbytes, hdst, if_true, apiSend, beginTx_of_owned _ _ _ _ _ _ hcopied]

theorem exec_sendSmall_of_error {m : BadMark} (h : apiSendSmall src len s = .error m) :
    exec (.sendSmall src len) s = .next (marked m s) := by
  show execSendSmall src len s = _
  rw [execSendSmall, h]
  exact finish_error s m

theorem exec_sendSmall_of_none {t : State} (h : apiSendSmall src len s = .ok (t, none)) :
    exec (.sendSmall src len) s = .next (returned .err t) := by
  show execSendSmall src len s = _
  rw [execSendSmall, h]
  rfl

theorem exec_sendSmall_of_some {t : State} {l : Len} (h : apiSendSmall src len s = .ok (t, some l)) :
    exec (.sendSmall src len) s = .next (returned (.len l) t) := by
  show execSendSmall src len s = _
  rw [execSendSmall, h]
  rfl

end SendSmall

/-- Settles O16, by the four answers of `apiSendSmall`: the capacity error, a copy queued, a transfer in flight, a range past
the top of `MEM`. -/
theorem sendSmallCopiesAndSends : Obligations.SendSmallCopiesAndSends := by
  intro src len s
  refine ⟨fun hcap => ?_, fun hlen hsrc hdst => ⟨fun hn => ?_, fun ho => ?_⟩, fun hlen htop => ?_⟩
  · exact exec_sendSmall_of_none (apiSendSmall_of_capacity src hcap)
  · exact exec_sendSmall_of_some (apiSendSmall_of_noneOwned hlen hsrc hdst hn)
  · exact exec_sendSmall_of_error (apiSendSmall_of_owned hlen hsrc hdst ho)
  · exact exec_sendSmall_of_error (apiSendSmall_past_top hlen htop)

/-! ### `stall` and `query` (45_api.md R326, R327, R329) -/

/-- `stall(0)` sets the indication and records it, and touches no descriptor (45_api.md R326). -/
theorem apiStall_zero (s : State) : apiStall 0 s = .ok { s with ep0Stall := true, out := s.out ++ [.stall] } := rfl

theorem apiStall_of_ne_zero {ep : BitVec 4} (s : State) (hep : ep ≠ 0) : apiStall ep s = .error (.refused .endpointNot0) :=
  if_neg hep

/-- Settles O13, by the endpoint: 0 or another. -/
theorem stallSetsTheIndicationOrIsRefused : Obligations.StallSetsTheIndicationOrIsRefused := by
  intro ep s
  show (_ → finishUnit s (apiStall ep s) = _) ∧ (_ → finishUnit s (apiStall ep s) = _)
  constructor
  · rintro rfl
    rw [apiStall_zero, finishUnit_ok]
  · intro hep
    rw [apiStall_of_ne_zero s hep, finishUnit_error]

/-- Settles O12: `query` ends its step with the state it began in. -/
theorem queryReturnsDeviceState : Obligations.QueryReturnsDeviceState := fun s =>
  finish_ok s s (.query s.devState s.devConfig)

end Sys2Proof.Machine
end

section
/-! At most one endpoint-0 descriptor is owned (46_transaction_completion.md R349): a step of the environment hands the owned one
back, and its event, which then finds none owned, arms at most one; no TX descriptor where it ends in `Idle`. -/

namespace Sys2Proof.Machine

open Sys2Proof

/-- The environment owns no endpoint-0 descriptor. -/
def AllHandedBack (s : State) : Prop := ∀ d, noneOwned d s

theorem AllHandedBack.oneOwned {s : State} (h : AllHandedBack s) : s.OneOwned :=
  ⟨fun d _ pp _ ho => absurd ho (by simp [noneOwned_slot (h d) pp]), fun _ => h .tx⟩

theorem Releases.allHandedBack {s t : State} (h : Releases s t) (hs : AllHandedBack s) : AllHandedBack t :=
  fun d => h.keeps_noneOwned (hs d)

/-- Of two owned descriptors the rule makes one: handing it back leaves none owned. -/
theorem State.OneOwned.allHandedBack {s : State} (h : s.OneOwned) {d : Dir} {x : Slot} (ho : (s.bdAt (bd0 d x)).own = true)
    (n : Nat) (tok : BitVec 4) : AllHandedBack (handedBack (bd0 d x) n tok s) := by
  have hall : ∀ e y, ((handedBack (bd0 d x) n tok s).bdAt (bd0 e y)).own = false := by
    intro e y
    rw [handedBack_bdAt]
    split
    · rfl
    · next hne =>
      refine Bool.eq_false_iff.2 fun hy => hne ?_
      obtain ⟨rfl, rfl⟩ := h.1 e d y x hy ho
      rfl
  exact fun e => ⟨hall e .even, hall e .odd⟩

theorem Releases.oneOwned {s t : State} (h : Releases s t) (hg : t.stage = s.stage) (hs : s.OneOwned) : t.OneOwned := by
  have howned (d : Dir) (pp : Slot) (ho : (t.bdAt (bd0 d pp)).own = true) : (s.bdAt (bd0 d pp)).own = true :=
    Bool.of_not_eq_false fun hf => absurd ho (by simp [h.own_eq_false hf])
  obtain ⟨hone, hidle⟩ := hs
  exact ⟨fun d e pp qq hd he => hone d e pp qq (howned d pp hd) (howned e qq he),
    fun ht => h.keeps_noneOwned (hidle (hg ▸ ht))⟩

/-! ### One arming where none is owned -/

theorem Arms.oneOwned {d : Dir} {s t : State} (h : Arms d s t) (hs : AllHandedBack s) (hg : d = .tx → t.stage ≠ .idle) :
    t.OneOwned := by
  obtain ⟨a, n, g, -, hbd⟩ := h.bdAt
  have harmed : ∀ e pp, (t.bdAt (bd0 e pp)).own = true → e = d ∧ pp = (s.pipe d).pingpong := by
    intro e pp ho
    rw [hbd] at ho
    split at ho
    · next hslot => exact bd0_injective _ _ _ _ hslot
    · exact absurd ho (by simp [noneOwned_slot (hs e) pp])
  refine ⟨fun e f pp qq he hf => ?_, fun hidle => ?_⟩
  · obtain ⟨rfl, rfl⟩ := harmed e pp he
    obtain ⟨rfl, rfl⟩ := harmed f qq hf
    exact ⟨rfl, rfl⟩
  · have htx (pp : Slot) : (t.bdAt (bd0 .tx pp)).own = false :=
      Bool.eq_false_iff.2 fun ho => hg (harmed .tx pp ho).1.symm hidle
    exact ⟨htx .even, htx .odd⟩

section AllHandedBack

variable {s : State} (hs : AllHandedBack s)
include hs

theorem oneOwned_armedRx (buf : Addr) (max : Len) (cb : Option CallbackId) (ctx : Addr) :
    (armedRx buf max cb ctx s).OneOwned :=
  (arms_armedRx buf max cb ctx s).oneOwned hs nofun

theorem oneOwned_armedTx (buf : Addr) (len req : Len) (cb : Option CallbackId) (ctx : Addr) (hg : s.stage ≠ .idle) :
    (armedTx buf len req cb ctx s).OneOwned :=
  (arms_armedTx buf len req cb ctx s).oneOwned hs fun _ => hg

theorem oneOwned_setupArmed : (setupArmed s).OneOwned :=
  oneOwned_armedRx (s := { s with rx := { s.rx with data01 := .data0 }, tx := { s.tx with data01 := .data1 } }) hs _ _ _ _

theorem oneOwned_protocolErrorState : (protocolErrorState s).OneOwned :=
  oneOwned_setupArmed (s := { s with ep0Stall := true, out := _, stage := .idle }) hs

theorem oneOwned_statusDoneState : (statusDoneState s).OneOwned := by
  unfold statusDoneState
  split
  · exact oneOwned_setupArmed (s := { s with stage := .idle, devState := _, hwAddr := _, out := _ }) hs
  · exact oneOwned_setupArmed (s := { s with stage := .idle }) hs

theorem oneOwned_statusInState : (statusInState s).OneOwned :=
  oneOwned_armedTx (s := { s with stage := .status, tx := _ }) hs _ _ _ _ _ nofun

theorem oneOwned_statusOutState : (statusOutState s).OneOwned :=
  oneOwned_armedRx (s := { s with stage := .status, rx := _ }) hs _ _ _ _

/-! ### The events -/

/-- `OnData` arms once; TX only on the way into or within `Data` and `Status` (43_control_fsm.md R237, R242, R245). -/
theorem oneOwned_onData {d : Dir} {i : Fin 64} {t : State} (h : onData d i s = .ok t) : t.OneOwned := by
  obtain ⟨-, -, rfl⟩ | ⟨-, hg, -, -, -, rfl⟩ | ⟨-, -, -, -, rfl⟩ | ⟨-, -, -, -, rfl⟩ | ⟨-, hr, -, -, -, -, rfl⟩ |
    ⟨-, -, -, -, -, rfl⟩ | ⟨-, -, -, -, -, rfl⟩ := onData_ok h
  · exact oneOwned_protocolErrorState hs
  · have hdata : (txNextChunk s).stage = .data := hg
    exact (arms_txNextChunk s).oneOwned hs fun _ => by simp [hdata]
  · exact oneOwned_statusOutState (s := txFinished s) hs
  · exact oneOwned_statusDoneState (s := txFinished s) hs
  · exact (arms_rxNextChunk hr).oneOwned hs nofun
  · exact oneOwned_statusInState (s := rxFinished _ s) hs
  · exact oneOwned_statusDoneState (s := rxFinished _ s) hs

/-- A handler that queues no transfer leaves none owned; one that queues a transfer arms once, and `Data` begins
(44_std_requests.md R270, R290; log 12). -/
theorem Handled.oneOwned_data {t : State} {o : ReqOutcome} (h : Handled s t o) : State.OneOwned { t with stage := .data } := by
  obtain ⟨q, hq, hcase⟩ := h
  have hback : AllHandedBack { q with stage := .data } := hq.releases.allHandedBack hs
  obtain ⟨rfl, -⟩ | ⟨-, ⟨buf, len, req, cb, ctx, -, rfl⟩ | ⟨buf, max, cb, ctx, -, rfl⟩⟩ := hcase
  · exact hback.oneOwned
  · exact oneOwned_armedTx hback buf len req cb ctx nofun
  · exact oneOwned_armedRx hback buf max cb ctx

/-- The SETUP step arms once: for the handler's transfer, or for what follows its outcome (43_control_fsm.md R236). -/
theorem oneOwned_runRequest {r : ControlReq} {o : ReqOutcome} {t : State} (h : runRequest handle r s = .ok (t, o)) :
    t.OneOwned := by
  obtain ⟨u, hu, hcase⟩ := runRequest_ok h
  have hopen : AllHandedBack (requestState r s) := (releases_requestState r s).allHandedBack hs
  obtain ⟨rfl, -, -, rfl⟩ | ⟨rfl, -, -, rfl⟩ | ⟨rfl, rfl⟩ | ⟨rfl, -, rfl⟩ := hcase
  · exact oneOwned_statusInState ((hu.releases (by decide)).allHandedBack hopen)
  · exact oneOwned_statusOutState ((hu.releases (by decide)).allHandedBack hopen)
  · exact hu.oneOwned_data hopen
  · exact oneOwned_protocolErrorState ((hu.releases (by decide)).allHandedBack hopen)

theorem oneOwned_onSetup {i : Fin 64} {t : State} (h : onSetup i s = .ok t) : t.OneOwned := by
  obtain ⟨b, o, -, hrun⟩ := onSetup_ok h
  exact oneOwned_runRequest hs hrun

end AllHandedBack

/-! ### The environment's steps -/

theorem req?_of_isEnvironmentStep {i : Instr} (h : isEnvironmentStep i = true) : i.req? = none := by
  match i, h with
  | .envSetup _ _, _ | .envIn _, _ | .envOut _ _ _ _, _ | .envDiag _ _ _ _, _ | .reset, _ | .busreset, _ => rfl

theorem releaseDiag_stage (i : Fin 64) (tok : BitVec 4) (rel : Bool) (s : State) :
    (releaseDiag i tok rel s).stage = s.stage := by
  unfold releaseDiag
  split <;> rfl

/-- Settles O53: a completion hands back the owned descriptor before its event arms one; a report or a failure only releases. -/
theorem oneDescriptorIsOwnedAtATime : Obligations.OneDescriptorIsOwnedAtATime := by
  intro i s t henv hs h
  cases ran_of_exec h with
  | envS _ pp x b u _ ho _ hset =>
    have hback : AllHandedBack (setupLanded x b s) :=
      State.OneOwned.allHandedBack (s := { s with mem := _, ep0Stall := false }) hs ho _ _
    exact oneOwned_onSetup (t := u) hback hset
  | envI _ pp x u ho hdata =>
    have hback : AllHandedBack (inTaken x s) := State.OneOwned.allHandedBack (s := { s with out := _ }) hs ho _ _
    exact oneOwned_onData (t := u) hback hdata
  | envO _ pp pid n bytes x u l k _ ho _ _ _ hdata =>
    have hback : AllHandedBack (outLanded x l { s with fresh := k }) :=
      State.OneOwned.allHandedBack (s := { s with fresh := k, mem := _ }) hs ho _ _
    exact oneOwned_onData (t := u) hback hdata
  | envD _ tok d pp rel x b k =>
    exact (releases_releaseDiag (bd0 d x) tok.code b k s).oneOwned (releaseDiag_stage _ _ _ _) hs
  | rst => exact powerOn_oneOwned s.params
  | bus => exact oneOwned_setupArmed fun d => busResetFields_noneOwned d s
  | fails | same => exact hs
  | row _ _ r u o hr _ => exact absurd hr (by simp [req?_of_isEnvironmentStep henv])
  | tx _ _ buf len req cb ctx v _ hi => obtain rfl | rfl := hi <;> cases henv
  | rx _ _ buf max cb ctx v _ hi => obtain rfl | rfl := hi <;> cases henv
  | evS | evI | evO | small | stall => cases henv

end Sys2Proof.Machine
end

section
/-! The environment's completions with a written slot, by their preconditions: the completion lands and its event follows in the
same step, or nothing happens (46_transaction_completion.md R340 to R343; log 8). And its diagnostic reports (R344). -/

namespace Sys2Proof.Machine

open Sys2Proof

section Completion

variable {pp : Slot} {pid : Toggle} {n : BitVec 16} {l : List Byte} {s : State}

/-! ### A failed precondition is no step -/

theorem exec_envSetup_of_not_owned (b : SetupData) (ho : (s.bdAt (bd0 .rx pp)).own = false) :
    exec (.envSetup (some pp) b) s = .next (returned .noStep s) :=
  if_neg (Bool.eq_false_iff.1 ho)

theorem exec_envIn_of_not_canIn (hcan : canIn pp s = false) : exec (.envIn (some pp)) s = .next (returned .noStep s) :=
  if_neg (Bool.eq_false_iff.1 hcan)

theorem exec_envOut_of_not_canOut (hcan : canOut pp (some pid) n.toNat l s = false) :
    exec (.envOut (some pp) (some pid) n (some l)) s = .next (returned .noStep s) :=
  if_neg (Bool.eq_false_iff.1 hcan)

theorem canIn_iff : canIn pp s = true ↔ (s.bdAt (bd0 .tx pp)).own = true ∧ s.ep0Stall = false := by
  simp [canIn]

theorem canOut_iff : canOut pp (some pid) n.toNat l s = true ↔
    (s.bdAt (bd0 .rx pp)).own = true ∧ s.ep0Stall = false ∧ n.toNat ≤ (s.bdAt (bd0 .rx pp)).bc.toNat
      ∧ pid = (s.bdAt (bd0 .rx pp)).data01 ∧ l.length = n.toNat := by
  simp [canOut, pidMatches, and_assoc]

/-! ### The event finds the descriptor handed back -/

theorem handedBack_not_owned (i : Fin 64) (k : Nat) (tok : BitVec 4) (s : State) :
    ((handedBack i k tok s).bdAt i).own = false := by
  rw [handedBack_bdAt, if_pos rfl]

theorem setupLanded_not_owned (pp : Slot) (b : SetupData) (s : State) :
    ((setupLanded pp b s).bdAt (bd0 .rx pp)).own = false :=
  handedBack_not_owned _ _ _ _

theorem inTaken_not_owned (pp : Slot) (s : State) : ((inTaken pp s).bdAt (bd0 .tx pp)).own = false :=
  handedBack_not_owned _ _ _ _

theorem outLanded_not_owned (pp : Slot) (l : List Byte) (s : State) :
    ((outLanded pp l s).bdAt (bd0 .rx pp)).own = false :=
  handedBack_not_owned _ _ _ _

/-- The hand-back of a completion that keeps the armed count (46_transaction_completion.md R342). -/
theorem handBack_emit_eq_inTaken (pp : Slot) (s : State) :
    let b := s.bdAt (bd0 .tx pp)
    handBack (bd0 .tx pp) b.bc tokIn (s.emit (.hostIn b.data01 (memGetList s.mem b.addr.toNat b.bc.toNat)))
      = inTaken pp s := by
  simp [inTaken, handedBack, handBack, State.setBd, State.emit, State.bdAt]

/-! ### A completion is the event at the completed state -/

theorem exec_envSetup_of_owned (b : SetupData) (ho : (s.bdAt (bd0 .rx pp)).own = true)
    (hfit : (s.bdAt (bd0 .rx pp)).addr.toNat + 8 ≤ memSize) :
    exec (.envSetup (some pp) b) s = finishUnit s (onSetup (bd0 .rx pp) (setupLanded pp b s)) := by
  have hwrite := memWrite_of_le (bytes := b.toList) (s := s) hfit
  have hexec : exec (.envSetup (some pp) b) s = finishUnit s (completeSetup pp b s) := if_pos ho
  have hevent : completeSetup pp b s = onEvent (statWord 0 .rx pp 0) tokSetup (setupLanded pp b s) := by
    simp only [completeSetup, hwrite]
    rfl
  rw [hexec, hevent, onEvent_setup, setupLanded_not_owned, if_neg Bool.false_ne_true]

theorem exec_envIn_of_owned (ho : (s.bdAt (bd0 .tx pp)).own = true) (hstall : s.ep0Stall = false)
    (hfit : (s.bdAt (bd0 .tx pp)).addr.toNat + (s.bdAt (bd0 .tx pp)).bc.toNat ≤ memSize) :
    exec (.envIn (some pp)) s = finishUnit s (onData .tx (bd0 .tx pp) (inTaken pp s)) := by
  have hexec : exec (.envIn (some pp)) s = finishUnit s (completeIn pp s) := if_pos (canIn_iff.2 ⟨ho, hstall⟩)
  have hevent : completeIn pp s = onEvent (statWord 0 .tx pp 0) tokIn (inTaken pp s) := by
    simp only [completeIn, memRead_of_le s hfit, handBack_emit_eq_inTaken]
    rfl
  rw [hexec, hevent, onEvent_in, inTaken_not_owned, if_neg Bool.false_ne_true]

theorem exec_envOut_of_owned (ho : (s.bdAt (bd0 .rx pp)).own = true) (hstall : s.ep0Stall = false)
    (hlen : l.length = n.toNat) (hbc : n.toNat ≤ (s.bdAt (bd0 .rx pp)).bc.toNat)
    (hfit : (s.bdAt (bd0 .rx pp)).addr.toNat + n.toNat ≤ memSize) :
    exec (.envOut (some pp) (some (s.bdAt (bd0 .rx pp)).data01) n (some l)) s
      = finishUnit s (onData .rx (bd0 .rx pp) (outLanded pp l s)) := by
  have hwrite := memWrite_of_le (bytes := l) (s := s) (hlen ▸ hfit)
  have hexec : exec (.envOut (some pp) (some (s.bdAt (bd0 .rx pp)).data01) n (some l)) s
      = finishUnit s (completeOut pp l s) := if_pos (canOut_iff.2 ⟨ho, hstall, hbc, rfl, hlen⟩)
  have hevent : completeOut pp l s = onEvent (statWord 0 .rx pp 0) tokOut (outLanded pp l s) := by
    simp only [completeOut, hwrite]
    rfl
  rw [hexec, hevent, onEvent_out, outLanded_not_owned, if_neg Bool.false_ne_true]

end Completion

/-- Settles O44: each listed failure makes the precondition of its step false. -/
theorem failedPreconditionsAreNoStep : Obligations.FailedPreconditionsAreNoStep := by
  intro pp b pid n l s
  refine ⟨exec_envSetup_of_not_owned b, fun hfail => ?_, fun hfail => ?_⟩
  · refine exec_envIn_of_not_canIn (Bool.eq_false_iff.2 fun hcan => ?_)
    obtain ⟨ho, hstall⟩ := canIn_iff.1 hcan
    simp [ho, hstall] at hfail
  · refine exec_envOut_of_not_canOut (Bool.eq_false_iff.2 fun hcan => ?_)
    obtain ⟨ho, hstall, hbc, hpid, -⟩ := canOut_iff.1 hcan
    simp [ho, hstall, hpid] at hfail
    omega

/-! ### The whole step or none of it (60_exceptions.md R375) -/

theorem Handled.bad {s t : State} {o : ReqOutcome} (h : Handled s t o) : t.bad = s.bad := by
  obtain ⟨q, hq, ⟨rfl, -⟩ | ⟨-, ⟨_, _, _, _, _, -, rfl⟩ | ⟨_, _, _, _, -, rfl⟩⟩⟩ := h <;> exact hq.bad

/-- A SETUP step that completes sets no mark. -/
theorem onSetup_bad {i : Fin 64} {s t : State} (h : onSetup i s = .ok t) : t.bad = s.bad := by
  obtain ⟨b, o, -, hrun⟩ := onSetup_ok h
  obtain ⟨u, hu, ⟨-, -, -, rfl⟩ | ⟨-, -, -, rfl⟩ | ⟨-, rfl⟩ | ⟨-, -, rfl⟩⟩ := runRequest_ok hrun <;> exact hu.bad

theorem statusDoneState_bad (s : State) : (statusDoneState s).bad = s.bad := by
  unfold statusDoneState
  split <;> rfl

/-- An IN or OUT completion that completes sets no mark. -/
theorem onData_bad {d : Dir} {i : Fin 64} {s t : State} (h : onData d i s = .ok t) : t.bad = s.bad := by
  obtain ⟨-, -, rfl⟩ | ⟨-, -, -, -, -, rfl⟩ | ⟨-, -, -, -, rfl⟩ | ⟨-, -, -, -, rfl⟩ | ⟨-, -, -, -, -, -, rfl⟩ |
    ⟨-, -, -, -, -, rfl⟩ | ⟨-, -, -, -, -, rfl⟩ := onData_ok h
  · rfl
  · rfl
  · rfl
  · exact statusDoneState_bad (txFinished s)
  · rfl
  · rfl
  · exact statusDoneState_bad (rxFinished _ s)

/-- A step begun in `s` whose event answered `u`: `u`, or `s` with the event's mark (60_exceptions.md R375). -/
def delivered (s u : State) : State :=
  match u.bad with
  | none => u
  | some m => marked m s

/-- An event run in `w` and the same answer taken at the end of a step begun in `s`. -/
theorem finishUnit_delivered {s w u : State} {x : Res State} (hw : w.bad = none) (hx : ∀ t, x = .ok t → t.bad = w.bad)
    (h : finishUnit w x = .next u) : finishUnit s x = .next (delivered s u) := by
  cases x with
  | error m =>
    rw [finishUnit_error] at h ⊢
    cases h
    simp [delivered, marked, hw]
  | ok t =>
    have ht : (returned .nothing t).bad = none := (hx t rfl).trans hw
    rw [finishUnit_ok] at h ⊢
    cases h
    simp [delivered, ht]

/-- Settles O39: completion step and event row end with the same answer of the controller, each at the state it began in. -/
theorem environmentStepsDeliverTheirEvent : Obligations.EnvironmentStepsDeliverTheirEvent := by
  intro pp s hbad
  refine ⟨fun b u ho hfit hev => ?_, fun u ho hstall hfit hev => ?_, fun l n u ho hstall hlen hbc hfit hev => ?_⟩
  · rw [exec_evSetupRx_of_not_owned 0 (setupLanded_not_owned pp b s)] at hev
    rw [exec_envSetup_of_owned b ho hfit]
    exact finishUnit_delivered (w := setupLanded pp b s) hbad (fun _ => onSetup_bad) hev
  · rw [exec_evInTx_of_not_owned 0 (inTaken_not_owned pp s)] at hev
    rw [exec_envIn_of_owned ho hstall hfit]
    exact finishUnit_delivered (w := inTaken pp s) hbad (fun _ => onData_bad) hev
  · rw [exec_evOutRx_of_not_owned 0 (outLanded_not_owned pp l s)] at hev
    rw [exec_envOut_of_owned ho hstall hlen hbc hfit]
    exact finishUnit_delivered (w := outLanded pp l s) hbad (fun _ => onData_bad) hev

/-! ### The completions of a control transfer's stages -/

/-- The landed packet is what the controller reads back (20_memory.md R71). -/
theorem setupLanded_bytes {pp : Slot} {b : SetupData} {s : State} (hwf : Memory.wf s.mem = true)
    (hfit : (s.bdAt (bd0 .rx pp)).addr.toNat + 8 ≤ memSize) :
    b.toList = memGetList (setupLanded pp b s).mem (s.bdAt (bd0 .rx pp)).addr.toNat 8 :=
  (memGetList_memPutList_same b.toList s.mem _ hwf hfit).symm

theorem setupLanded_addr (pp : Slot) (b : SetupData) (s : State) :
    ((setupLanded pp b s).bdAt (bd0 .rx pp)).addr = (s.bdAt (bd0 .rx pp)).addr := by
  rw [setupLanded, handedBack_bdAt, if_pos rfl]
  rfl

/-- The controller's SETUP step runs the request that landed (43_control_fsm.md R236). -/
theorem onSetup_setupLanded {pp : Slot} {b : SetupData} {s : State} (hwf : Memory.wf s.mem = true)
    (hfit : (s.bdAt (bd0 .rx pp)).addr.toNat + 8 ≤ memSize) :
    onSetup (bd0 .rx pp) (setupLanded pp b s) = dropResult (runRequest handle (decodeReq b) (setupLanded pp b s)) := by
  apply onSetup_of_bytes
  · rwa [setupLanded_addr]
  · rw [setupLanded_addr]
    exact setupLanded_bytes hwf hfit

/-- A host-to-device request with no data stage enters the status IN: its cancellation left no TX descriptor owned
(43_control_fsm.md R236, R238). -/
theorem runRequest_of_noData_in {r : ControlReq} {s t : State} (h : handle r (requestState r s) = .ok (t, .noData))
    (hdir : r.dir = 0) (hn : noneOwned .tx t) : runRequest handle r s = .ok (statusInState t, .noData) := by
  simp only [runRequest, openRequest_eq, h, continueRequest, oppositeDir, if_pos hdir, enterStatus_tx_of_noneOwned t hn]

/-- Settles O40: the SETUP step reads the landed packet, and its status IN finds no TX descriptor owned. -/
theorem envSetupOfSetAddress : Obligations.EnvSetupOfSetAddress := by
  intro pp s b hwf ho hfit htype hcode hdir
  have hn : noneOwned .tx (requestState (decodeReq b) (setupLanded pp b s)) := requestState_noneOwned_tx _ _
  have hhandle := handle_of_setAddress htype hcode (requestState (decodeReq b) (setupLanded pp b s))
  rw [exec_envSetup_of_owned b ho hfit, onSetup_setupLanded hwf hfit, runRequest_of_noData_in hhandle hdir hn, dropResult,
    finishUnit_ok]

/-- Settles O41: the finished status IN is where `StatusDone` runs; it finds no RX descriptor owned. -/
theorem envInOfTheStatusStage : Obligations.EnvInOfTheStatusStage := by
  intro pp s ho hstall hfit hg hd hn
  have hdone : noneOwned .rx (txFinished (inTaken pp s)) := (releases_inTaken pp s).keeps_noneOwned hn
  have hdata : onData .tx (bd0 .tx pp) (inTaken pp s) = statusDone (txFinished (inTaken pp s)) :=
    onData_status_of_finished (s := inTaken pp s) hg (advanceTx_of_done (inTaken pp s) hd)
  rw [exec_envIn_of_owned ho hstall hfit, hdata, statusDone_of_noneOwned _ hdone, finishUnit_ok]

/-- The count of an OUT no longer than armed fits in the descriptor's ten bits (46_transaction_completion.md R343). -/
theorem outLanded_bc {pp : Slot} {l : List Byte} {s : State} (h : l.length ≤ (s.bdAt (bd0 .rx pp)).bc.toNat) :
    ((outLanded pp l s).bdAt (bd0 .rx pp)).bc.toNat = l.length := by
  have hlt := (s.bdAt (bd0 .rx pp)).bc.isLt
  rw [outLanded, handedBack_bdAt, if_pos rfl]
  exact Nat.mod_eq_of_lt (by omega)

/-- Settles O42: the engine counts the landed bytes and finishes, and the status IN finds no TX descriptor owned. -/
theorem envOutEndsTheDataStage : Obligations.EnvOutEndsTheDataStage := by
  intro pp n l s ho hstall hlen hbc hfit hg hroom hd hn
  have hcount : ((outLanded pp l s).bdAt (bd0 .rx pp)).bc.toNat = n.toNat := (outLanded_bc (hlen ▸ hbc)).trans hlen
  have hadvance : advanceRx (bd0 .rx pp) (outLanded pp l s) = .ok (rxFinished n.toNat (outLanded pp l s), .finished) := by
    rw [← hcount] at hroom hd ⊢
    exact advanceRx_of_done (bd0 .rx pp) (outLanded pp l s) hroom hd
  have hdone : noneOwned .tx (rxFinished n.toNat (outLanded pp l s)) :=
    (releases_outLanded s.fresh (hlen ▸ hfit)).keeps_noneOwned hn
  have hdata : onData .rx (bd0 .rx pp) (outLanded pp l s) = enterStatus .tx (rxFinished n.toNat (outLanded pp l s)) :=
    onData_data_of_finished (d := .rx) (s := outLanded pp l s) hg hadvance
  rw [exec_envOut_of_owned ho hstall hlen hbc hfit, hdata, enterStatus_tx_of_noneOwned _ hdone, finishUnit_ok]

/-! ### Diagnostic reports (46_transaction_completion.md R344; log 9) -/

theorem exec_envDiag (tok : DiagTok) (d : Dir) (pp : Slot) (rel : Option Bool) (s : State) :
    exec (.envDiag tok d (some pp) rel) s = .next (returned .nothing
      (releaseDiag (bd0 d pp) tok.code (chooseRelease rel s) (s.takeFresh (releaseFresh rel)))) := by
  have hexec : exec (.envDiag tok d (some pp) rel) s = finishUnit s (onEvent (statOf 0 d pp) tok.code
      (releaseDiag (bd0 d pp) tok.code (chooseRelease rel s) (s.takeFresh (releaseFresh rel)))) := rfl
  rw [hexec, onEvent_statOf, if_pos (isDiag_code tok), finishUnit_ok]

/-- A written choice takes no free value. -/
theorem exec_envDiag_written (tok : DiagTok) (d : Dir) (pp : Slot) (rel : Bool) (s : State) :
    exec (.envDiag tok d (some pp) (some rel)) s = .next (returned .nothing (releaseDiag (bd0 d pp) tok.code rel s)) :=
  exec_envDiag tok d pp (some rel) s

theorem releaseDiag_of_not_owned {i : Fin 64} {s : State} (tok : BitVec 4) (rel : Bool) (h : (s.bdAt i).own = false) :
    releaseDiag i tok rel s = s :=
  if_neg (by simp [h])

theorem releaseDiag_of_owned {i : Fin 64} {s : State} (tok : BitVec 4) (h : (s.bdAt i).own = true) :
    releaseDiag i tok true s = { s with bd := s.bd.set i { s.bdAt i with tokPid := tok, own := false } } :=
  if_pos h

/-- Settles O43: a diagnostic event writes nothing, so the step is the hand-back alone; a free choice is one of the two. -/
theorem envDiagReleasesOrChangesNothing : Obligations.EnvDiagReleasesOrChangesNothing := by
  intro tok d pp s i released
  refine ⟨exec_envDiag_written tok d pp false s, fun ho => ?_, fun ho => ?_, chooseRelease none s, ?_⟩
  · rw [exec_envDiag_written, releaseDiag_of_not_owned tok.code true ho]
  · rw [exec_envDiag_written, releaseDiag_of_owned tok.code ho]
  · rw [exec_envDiag, exec_envDiag_written]
    rfl

end Sys2Proof.Machine
end

section
/-! The end of a step, and the reset steps: every instruction answers a next state, and that state carries a new mark only as the
one effect of the step (60_exceptions.md R375); what the two resets leave (70_reset_and_hazards.md R400, R402). -/

namespace Sys2Proof.Machine

open Sys2Proof

/-! ### A step happens entirely, or only marks -/

/-- A SETUP step that completes sets no mark. -/
theorem runRequest_bad {r : ControlReq} {s t : State} {o : ReqOutcome} (h : runRequest handle r s = .ok (t, o)) :
    t.bad = s.bad := by
  obtain ⟨u, hu, ⟨-, -, -, rfl⟩ | ⟨-, -, -, rfl⟩ | ⟨-, rfl⟩ | ⟨-, -, rfl⟩⟩ := runRequest_ok h <;> exact hu.bad

theorem releaseDiag_bad (i : Fin 64) (tok : BitVec 4) (rel : Bool) (s : State) : (releaseDiag i tok rel s).bad = s.bad := by
  unfold releaseDiag
  split <;> rfl

/-- Every step keeps `S.bad`, or is the mark alone. -/
theorem exec_bad_or_marked {i : Instr} {s t : State} (h : exec i s = .next t) :
    t.bad = s.bad ∨ ∃ m, t = marked m s := by
  cases ran_of_exec h with
  | fails _ _ m => exact .inr ⟨m, rfl⟩
  | same | rst | bus | tx | rx | stall => exact .inl rfl
  | row _ _ r u o _ hrun => exact .inl (runRequest_bad (t := u) hrun)
  | evS _ u pp rsv _ hset => exact .inl (onSetup_bad (t := u) hset)
  | evI _ u pp rsv _ hdata => exact .inl (onData_bad (t := u) hdata)
  | evO _ u pp rsv _ hdata => exact .inl (onData_bad (t := u) hdata)
  | small _ q src len v a l r hq => exact .inl hq.bad
  | envS _ pp x b u _ _ _ hset => exact .inl (onSetup_bad (s := setupLanded x b s) (t := u) hset)
  | envI _ pp x u _ hdata => exact .inl (onData_bad (s := inTaken x s) (t := u) hdata)
  | envO _ pp pid n bytes x u l k _ _ _ _ _ hdata =>
    exact .inl (onData_bad (s := outLanded x l { s with fresh := k }) (t := u) hdata)
  | envD _ tok d pp rel x b k => exact .inl (releaseDiag_bad (bd0 d x) tok.code b { s with fresh := k })

theorem marked_bad_of_none {s : State} (m : BadMark) (h : s.bad = none) : (marked m s).bad = some m := by
  simp [marked, h]

/-- Settles O47: a step that completes keeps `S.bad`, so a new mark is that of `marked`. -/
theorem failingStepsOnlyMark : Obligations.FailingStepsOnlyMark := by
  intro i s t m hs h ht
  obtain hkept | ⟨k, rfl⟩ := exec_bad_or_marked h
  · rw [hkept, hs] at ht
    cases ht
  · rw [marked_bad_of_none k hs] at ht
    cases ht
    rfl

/-! ### No instruction stops the machine -/

/-- The end of a step is a next state, with the mark or without. -/
theorem finish_answers (s : State) (r : Res (State × Ret)) : ∃ t, finish s r = .next t := by
  cases r with
  | error m => exact ⟨_, finish_error s m⟩
  | ok p => exact ⟨_, finish_ok s p.1 p.2⟩

theorem finishUnit_answers (s : State) (r : Res State) : ∃ t, finishUnit s r = .next t := finish_answers s _

theorem eventStep_answers (tok ep : BitVec 4) (d : Dir) (pp : Slot) (rsv : BitVec 2) (s : State) :
    ∃ t, eventStep tok ep d pp rsv s = .next t := finishUnit_answers s _

/-- A guarded environment step: its completion, or no step (log 8). -/
theorem ite_noStep_answers (c : Bool) (s : State) (r : Res State) :
    ∃ t, (if c then finishUnit s r else noStep s) = .next t := by
  cases c
  · exact ⟨_, rfl⟩
  · exact finishUnit_answers s r

/-- Settles O46: every arm of `exec` ends in `finish`, or in a next state of its own. -/
theorem everyInstructionAnswersANextState : Obligations.EveryInstructionAnswersANextState := by
  intro i s
  cases hr : i.req? with
  | some r =>
    rw [exec_row s hr]
    exact finish_answers s _
  | none =>
    cases i
    case reset | query => exact ⟨_, rfl⟩
    case busreset | stall | envDiag => exact finishUnit_answers s _
    case send | sendSmall | receive | beginTx | beginRx => exact finish_answers s _
    case envSetup | envIn | envOut => exact ite_noStep_answers _ s _
    case evSetupRx | evOutRx | evInTx | evDiagTimeout | evDiagAck | evDiagNak | evDiagStall | evDiagDataerr
        | evIllegalSetupTx | evIllegalOutTx | evIllegalInRx | evIllegalTok3 | evIllegalTok47 | evIllegalTok8
        | evIllegalTokB | evIllegalTokC | evWrongEndpoint8F | evWrongEndpoint47 | evWrongEndpoint23
        | evWrongEndpoint1 =>
      exact eventStep_answers _ _ _ _ _ s
    all_goals cases hr

/-! ### The reset steps -/

/-- Settles O11: the released directory has no RX descriptor owned, so `ArmSetup` arms. -/
theorem busResetRestartsEndpointZero : Obligations.BusResetRestartsEndpointZero := by
  intro s
  have hexec : exec .busreset s = finishUnit s (armSetup (busResetFields s)) := rfl
  rw [hexec, armSetup_of_noneOwned _ (busResetFields_noneOwned .rx s), finishUnit_ok]
  rfl

/-- Settles O10: each value stands in the definition; the 64 descriptors are copies of one. -/
theorem powerOnResetStep : Obligations.PowerOnResetStep := by
  intro s
  refine ⟨_, rfl, rfl, rfl, rfl, rfl, rfl, rfl, rfl, rfl, rfl, fun i => ?_, rfl, rfl, rfl, rfl, rfl⟩
  exact congrArg Bd.own (powerOn_bdAt s.params i)

end Sys2Proof.Machine
end
